-- ==== Sys2Proof/Word.lean ====
section
/-! DEFINITION. The word types of the bus-transport controller (spec/00_scope.md R8, spec/30_encoding.md R80). -/

namespace Sys2Proof

/-- One line level or one-bit register: 0 or 1 (00_scope.md R8). -/
abbrev Bit := BitVec 1

/-- Four data lines, or half a byte (00_scope.md R16, "Nibble"). -/
abbrev Nibble := BitVec 4

/-- The value of one `SEND` and the width of the data registers (00_scope.md R7, "data width"). -/
abbrev Byte := BitVec 8

/-- A Format C command word, as the host presents it at the command port (30_encoding.md R82). -/
abbrev CmdWord := BitVec 12

end Sys2Proof
end

