-- ==== Sys2Proof/Syntax.lean ====
section
/-! DEFINITION. The instructions: one constructor per row of spec/opcode_table.json, and the enumerations their
operands are written with (spec/30_encoding.md R84), and the host's pseudo-instructions. The numeric value of each variant is in Decode.lean. -/

namespace Sys2Proof

/-- The bus-width variant `MODE` (00_scope.md R2), and the `W` bit of a function-set byte (30_encoding.md R84). -/
inductive BusMode where
  | eightBit
  | fourBit
  deriving DecidableEq, Repr

/-- 30_encoding.md R84. -/
inductive LineCount where
  | single
  | two
  deriving DecidableEq, Repr

/-- 30_encoding.md R84. -/
inductive DisplayState where
  | off
  | on
  deriving DecidableEq, Repr

/-- 30_encoding.md R84. -/
inductive CursorState where
  | off
  | on
  deriving DecidableEq, Repr

/-- 30_encoding.md R84. -/
inductive BlinkState where
  | off
  | on
  deriving DecidableEq, Repr

/-- 30_encoding.md R84. -/
inductive EntryDirection where
  | left
  | right
  deriving DecidableEq, Repr

/-- 30_encoding.md R84. -/
inductive AutoShift where
  | off
  | on
  deriving DecidableEq, Repr

/-- What a cursor/display shift moves (30_encoding.md R84). -/
inductive ShiftObject where
  | cursor
  | display
  deriving DecidableEq, Repr

/-- 30_encoding.md R84. -/
inductive ShiftDirection where
  | left
  | right
  deriving DecidableEq, Repr

/-- The commands of the block, one constructor per row of the opcode table, in the table's order. -/
inductive Instr where
  /-- `SEND rs, rw, byte`, the generic transfer (40_bus_transport.md R115). No word decodes to it, because every word
  of its row also fits a more specific row (30_encoding.md R88). -/
  | send (rs rw : Bit) (byte : Byte)
  /-- `SEND 0, 0, byte` for a byte the Instruction Encoder never builds (30_encoding.md R89). -/
  | irwrite (byte : Byte)
  /-- Clear display (41_instruction_encoder.md R140). -/
  | clear
  /-- Return home (41_instruction_encoder.md R141). -/
  | home
  /-- Entry mode set (41_instruction_encoder.md R142). -/
  | entry (direction : EntryDirection) (shift : AutoShift)
  /-- Display on/off control (41_instruction_encoder.md R143). -/
  | dispctl (display : DisplayState) (cursor : CursorState) (blink : BlinkState)
  /-- Cursor/display shift (41_instruction_encoder.md R144). -/
  | shift (object : ShiftObject) (direction : ShiftDirection)
  /-- Function set (41_instruction_encoder.md R145). `width` is the `W` bit of the byte, whatever `MODE` is. -/
  | funcset (width : BusMode) (lines : LineCount)
  /-- Character write (41_instruction_encoder.md R146). -/
  | wrdata (byte : Byte)
  /-- One nibble in one pulse, without a poll (40_bus_transport.md R116). -/
  | rawnib (n : Nibble)
  /-- The busy poll alone (40_bus_transport.md R117). -/
  | poll
  /-- `op = 00` with `rw = 1` (30_encoding.md R87). -/
  | reservedSendRead (rs : Bit) (byte : Byte)
  /-- `op = 01` with `payload[9:4]` not 0 (30_encoding.md R87). -/
  | reservedRawnibBits (reserved : BitVec 6) (n : Nibble)
  /-- `op = 10` with `payload` not 0 (30_encoding.md R87). -/
  | reservedPollBits (reserved : BitVec 10)
  /-- `op = 11` (30_encoding.md R87). -/
  | reservedOp (payload : BitVec 10)
  deriving DecidableEq, Repr

/-- The mnemonics of spec/opcode_table.json, in the table's order. -/
inductive Mnemonic where
  | SEND
  | IRWRITE
  | CLEAR
  | HOME
  | ENTRY
  | DISPCTL
  | SHIFT
  | FUNCSET
  | WRDATA
  | RAWNIB
  | POLL
  | RESERVED_SEND_READ
  | RESERVED_RAWNIB_BITS
  | RESERVED_POLL_BITS
  | RESERVED_OP
  deriving DecidableEq, Repr

/-- One row of spec/opcode_table.json: a word `w` fits it when `w &&& mask = value`. -/
structure OpcodeRow where
  mnemonic : Mnemonic
  mask : CmdWord
  value : CmdWord
  deriving DecidableEq, Repr

/-- The public operations of the Display Controller, the host's pseudo-instructions (42_display_controller.md R161 to R170). No
word decodes to one: each is a sequence of commands (30_encoding.md R91, R92). -/
inductive PublicOp where
  | initializeDisplay
  | configureDisplay (display : DisplayState) (cursor : CursorState) (blink : BlinkState)
  | setEntryMode (direction : EntryDirection) (shift : AutoShift)
  | setFunction (lines : LineCount)
  | clearDisplay
  | returnHome
  | shift (object : ShiftObject) (direction : ShiftDirection)
  | turnDisplayOff
  | writeText (bytes : List Byte)
  | appendByte (byte : Byte)
  deriving DecidableEq, Repr

end Sys2Proof
end

