-- ==== Sys2Proof/Config.lean ====
section
/-! DEFINITION. What an instance of the block fixes for its life (spec/00_scope.md R7, spec/10_state.md R40), and the free
values: what the spec leaves open and the model therefore does not know (notes/assumptions/1.md). -/

namespace Sys2Proof

/-- The parameters of an instance and of the host's macros (00_scope.md R7). Times are in microseconds. Every statement
about the machine holds for every value of this record, unless it says which parameter it fixes. -/
structure Params where
  /-- `MODE`, fixed at construction (00_scope.md R2). -/
  mode : BusMode
  /-- `T_PW`, the time `E` stays high. -/
  tPW : Nat
  tPowerOn : Nat
  tInit1 : Nat
  tInit2 : Nat
  tInit3 : Nat
  tInit4 : Nat
  /-- `T_SCROLL` of an `EightBit` instance (90_conflicts.md C4: one value per `MODE`). -/
  tScrollEight : Nat
  /-- `T_SCROLL` of a `FourBit` instance. -/
  tScrollFour : Nat
  initLines : LineCount
  initDisplay : DisplayState
  initCursor : CursorState
  initBlink : BlinkState
  deriving DecidableEq, Repr

/-- `T_SCROLL`: "one fixed value per `MODE`" (90_conflicts.md C4). -/
def Params.tScroll (p : Params) : Nat :=
  match p.mode with
  | .eightBit => p.tScrollEight
  | .fourBit => p.tScrollFour

/-- The ranges of 00_scope.md R7 and of the table of open parameters in 92_eei_decisions.md. -/
def Params.inRange (p : Params) : Bool :=
  1 ≤ p.tPW && 50000 ≤ p.tPowerOn && 5000 ≤ p.tInit1 && 150 ≤ p.tInit2 && 150 ≤ p.tInit3 && 150 ≤ p.tInit4
    && 500000 ≤ p.tScrollEight && p.tScrollEight ≤ 700000 && 500000 ≤ p.tScrollFour && p.tScrollFour ≤ 700000

/-- The parameters of `State.reset`. `T_PW`, `T_INIT3` and `T_INIT4` are the spec's defaults (92_eei_decisions.md D6, D16);
`MODE`, `T_SCROLL` and the `INIT_` values have no default in the spec and are chosen here.
DESIGN CHOICE, unsafe: notes/assumptions/3.md. No statement rests on them. -/
def Params.atReset : Params where
  mode := .eightBit
  tPW := 1
  tPowerOn := 50000
  tInit1 := 5000
  tInit2 := 150
  tInit3 := 150
  tInit4 := 150
  tScrollEight := 500000
  tScrollFour := 500000
  initLines := .single
  initDisplay := .off
  initCursor := .off
  initBlink := .off

/-- `SCROLL_THRESHOLD`, a count of characters (00_scope.md R7). -/
def scrollThreshold : Nat := 16

/-- The oracles the state does not write out, numbered: the answer of number `k` to a sample, by its sample number
(20_memory.md R72: "The oracle is unconstrained"). A free value: no body, so nothing can be proved of it. -/
opaque Config.moduleAnswer : Nat → Nat → Bit

/-- The command latch after the reset input was asserted (10_state.md R42: "unspecified"). A free value. -/
opaque Config.freeLatch : Nat → CmdWord

end Sys2Proof
end

