-- ==== Sys2Proof/Machine/State.lean ====
section
/-! DEFINITION. The state of the machine: every element of spec/10_state.md R30, the two traces of spec/20_memory.md R73,
the instance's parameters, and the environment's inputs as plain data. Also why a step can stop. -/

namespace Sys2Proof.Machine

/-- The sequencer states (10_state.md R38): "it names the micro-step the block will perform next". -/
inductive Seq where
  | IDLE
  | P_CFG | P_CTRL | P_EH | P_PW | P_SMP | P_EL | P_DEH | P_DPW | P_DEL | P_TEST | P_REST
  | S_CTRL | S_DIR | S_D0 | S_EH0 | S_PW0 | S_EL0 | S_D1 | S_EH1 | S_PW1 | S_EL1
  | R_CTRL | R_DIR | R_D | R_EH | R_PW | R_EL
  deriving DecidableEq, Repr

/-- The alphabet of the pin-event trace (20_memory.md R73, item 1). -/
inductive PinEvent where
  /-- Command word `w` accepted. -/
  | acc (w : CmdWord)
  /-- `AUX <- 1` and `DDIR[7] <- 0` and `DPUE[7] <- 1`. -/
  | cfg7In
  /-- `RS <- rs` and `RW <- rw`. -/
  | ctl (rs rw : Bit)
  /-- `E <- 1`. -/
  | eHi
  /-- A `Delay(t)` call and its return; `t` in microseconds. -/
  | dly (t : Nat)
  /-- `BF <- DIN[7]`, with the sampled bit. -/
  | smp (b : Bit)
  /-- `E <- 0`. -/
  | eLo
  /-- `DDIR[7] <- 1` and `DPUE[7] <- 0` and `AUX <- 0`. -/
  | cfg7Out
  /-- `DDIR <- 0xFF`. -/
  | dirAll
  /-- `DOUT <- v`. -/
  | dat8 (v : Byte)
  /-- `DOUT[7:4] <- n`. -/
  | dat4 (n : Nibble)
  /-- The command returns, `SEQ <- IDLE`. -/
  | ret
  deriving DecidableEq, Repr

/-- One record of the bus-cycle trace, taken at an `ELo` event (20_memory.md R73, item 2): what the module sees. -/
structure BusCycle where
  rs : Bit
  rw : Bit
  ddir : Byte
  dout : Byte
  /-- "the bit sampled between the matching `EHi` and this `ELo`, or `none`". -/
  smp : Option Bit
  deriving DecidableEq, Repr

/-- The Display Controller's life cycle, held by the host (42_display_controller.md R171). -/
inductive LifeCycle where
  | uninitialized
  | initializing
  | ready
  deriving DecidableEq, Repr

/-- What the host does next at the command port, one at a time, while `READY = 1` (42_display_controller.md R160). -/
inductive HostAction where
  /-- Present command word `w` with a request (40_bus_transport.md R120). -/
  | command (w : CmdWord)
  /-- `DELAY t` (42_display_controller.md R172). -/
  | delay (t : Nat)
  /-- The host moves its own life cycle on; the block does not see it (42_display_controller.md R171). -/
  | enter (l : LifeCycle)
  /-- The host calls a public operation. It issues the operation's lines where its life cycle lets it (R171). -/
  | call (op : PublicOp)
  deriving DecidableEq, Repr

/-- How an oracle goes on after the answers that are listed one by one (20_memory.md R72). -/
inductive OracleRest where
  /-- A pattern of one or more answers, over and over ("1 for ever" included). -/
  | cycle (first : Bit) (others : List Bit)
  /-- Nothing is known of it: the oracle of number `k` among those the state does not write out. -/
  | unknown (k : Nat)
  deriving DecidableEq, Repr

/-- The oracle `Module : sample number -> bit` of 20_memory.md R72, as plain data; `Oracle.answer` is the function. -/
structure Oracle where
  /-- The answers to samples 1, 2, ... -/
  first : List Bit
  /-- The answers after those. -/
  rest : OracleRest
  deriving DecidableEq, Repr

/-- The machine: the block (10_state.md R30), its traces, its parameters, and the inputs its environment has ready.
`op` to `seq` are the thirteen elements of R30. -/
@[ext]
structure State where
  /-- `OP`, command latch (R31). -/
  op : BitVec 2
  /-- `CRS`, command latch (R31). -/
  crs : Bit
  /-- `CRW`, command latch (R31). -/
  crw : Bit
  /-- `CDATA`, command latch (R31). -/
  cdata : Byte
  /-- `DOUT`, data output register (R32). -/
  dout : Byte
  /-- `DDIR`, data direction register, 1 = output (R33). -/
  ddir : Byte
  /-- `DPUE`, pull-up enable register (R34). -/
  dpue : Byte
  /-- `RS`, control line register (R35). -/
  rs : Bit
  /-- `RW`, control line register (R35). -/
  rw : Bit
  /-- `E`, control line register (R35). -/
  e : Bit
  /-- `AUX`, auxiliary output (R36). No claim may depend on it (93_implementation_defined.md U6). -/
  aux : Bit
  /-- `BF`, busy-flag sample flag (R37). -/
  bf : Bit
  /-- `SEQ`, the program counter (R38). -/
  seq : Seq
  /-- The pin-event trace since reset, oldest first (20_memory.md R73). -/
  pins : List PinEvent
  /-- The bus-cycle trace since reset, oldest first (20_memory.md R73). -/
  bus : List BusCycle
  /-- The instance's parameters; no step writes them (10_state.md R40). -/
  params : Params
  /-- Input: what the host has lined up at the command port, next first. -/
  port : List HostAction
  /-- The host's life cycle (42_display_controller.md R171). -/
  life : LifeCycle
  /-- Input: the module's answer to each sample, by its number since reset; no step writes it (20_memory.md R72). -/
  oracle : Oracle
  /-- Input: the level of the reset input at the coming steps, next first; not asserted past its end. -/
  resetIn : List Bool
  /-- The model's own: how many free values of the command latch have been drawn, one at each asserted reset. -/
  draws : Nat
  deriving DecidableEq, Repr

/-- The machine right after power-up or reset with parameters `p` (10_state.md R42, 70_reset_and_hazards.md R210), nothing
lined up by the host and nothing known of the module. The command latch is "unspecified" there; zero is the model's value.
DESIGN CHOICE, unsafe: notes/assumptions/2.md. -/
def State.resetOf (p : Params) : State where
  op := 0
  crs := 0
  crw := 0
  cdata := 0
  dout := 0x00
  ddir := 0xFF
  dpue := 0x00
  rs := 0
  rw := 0
  e := 0
  aux := 0
  bf := 0
  seq := .IDLE
  pins := []
  bus := []
  params := p
  port := []
  life := .uninitialized
  oracle := { first := [], rest := .unknown 0 }
  resetIn := []
  draws := 0

/-- `State.resetOf` at the parameters of `Params.atReset`. -/
def State.reset : State := State.resetOf Params.atReset

/-- `MODE` of the instance. -/
abbrev State.mode (s : State) : BusMode := s.params.mode

/-- Why the machine stops with a fault. The block itself raises none (60_exceptions.md R190). -/
inductive Fault where
  /-- Raised by `advance` at `P_REST` when `OP` is neither `SEND` nor `POLL`: 40_bus_transport.md R118 names no successor.
  Safe: no run reaches it (notes/assumptions/6.md). -/
  | latchMismatch
  deriving DecidableEq, Repr

/-- Why the model gives a command word no meaning (60_exceptions.md R191). -/
inductive Refusal where
  /-- Raised by an arm of `exec` whose instruction has no meaning yet; safe. No arm raises it now. -/
  | notModelled (mnemonic : String)
  /-- Code 1. Raised by `execReservedOp`: a command word with `op = 11`. Safe. -/
  | reservedOp
  /-- Code 2. Raised by `execReservedSendRead`, and by `execSend` with `rw = 1`. Safe. -/
  | sendRead
  /-- Code 3. Raised by `execReservedRawnibBits` and `execReservedPollBits`: nonzero reserved payload bits. Safe. -/
  | reservedBits
  deriving DecidableEq, Repr

end Sys2Proof.Machine
end

