-- ==== Sys2Proof/Machine/Flags.lean ====
section
/-! DEFINITION. The block's one flag and its one status (spec/10_state.md R37, R44); it has no others ("no condition
codes, no carry, no error flag", R44). -/

namespace Sys2Proof.Machine

/-- `READY`: "the predicate `SEQ = IDLE`" (R44). -/
def State.ready (s : State) : Bool := s.seq == .IDLE

/-- The test of `P_TEST`: "`BF = 1` means the module is still busy" (R37). -/
def State.stillBusy (s : State) : Bool := s.bf == 1

/-- The value `P_SMP` writes to `BF`: the level of `D[7]` (R37). -/
def sampledFlag (din7 : Bit) : Bit := din7

/-- Whether a pin event is that of a `P_SMP` step. -/
def PinEvent.isSample : PinEvent → Bool
  | .smp _ => true
  | .acc _ | .cfg7In | .ctl _ _ | .eHi | .dly _ | .eLo | .cfg7Out | .dirAll | .dat8 _ | .dat4 _ | .ret => false

/-- The sample number of 20_memory.md R72: how many `P_SMP` steps the pin-event trace holds. -/
def State.sampleCount (s : State) : Nat := s.pins.countP PinEvent.isSample

end Sys2Proof.Machine
end

