-- ==== Sys2Proof/WellFormed.lean ====
section
/-! DEFINITION. Which instructions are well formed: the side conditions the rows of spec/opcode_table.json put on their
operands (spec/30_encoding.md R87, R88, R89). -/

namespace Sys2Proof

/-- Whether a byte is one of the six instruction bytes of the Instruction Encoder: the masks and matches of
30_encoding.md R88. -/
def isEncoderByte (b : Byte) : Bool :=
  b &&& 0xE7 == 0x20 || b &&& 0xF3 == 0x10 || b &&& 0xF8 == 0x08 || b &&& 0xFC == 0x04 || b == 0x02 || b == 0x01

/-- The operands are ones the instruction's row admits. -/
def Instr.wf : Instr → Bool
  | .send _ rw _ => rw == 0                        -- R115: `rw` "must be 0"
  | .irwrite byte => !isEncoderByte byte           -- R89
  | .clear => true
  | .home => true
  | .entry _ _ => true
  | .dispctl _ _ _ => true
  | .shift _ _ => true
  | .funcset _ _ => true
  | .wrdata _ => true
  | .rawnib _ => true
  | .poll => true
  | .reservedSendRead _ _ => true
  | .reservedRawnibBits reserved _ => reserved != 0  -- opcode table note: "Applies when payload[9:4] != 0"
  | .reservedPollBits reserved => reserved != 0      -- opcode table note: "Applies when payload != 0"
  | .reservedOp _ => true

end Sys2Proof
end

