-- ==== Sys2Proof/Decode.lean ====
section
/-! DEFINITION. Decoding and encoding of Format C command words (spec/30_encoding.md R81, R82, R84, R86, R87, R88, R89),
both written from the encodings of spec/opcode_table.json. The byte formulas of R85 are in Machine/Operands.lean. -/

namespace Sys2Proof

/-! ### Enumerations as one-bit numbers (30_encoding.md R84) -/

def LineCount.toBit : LineCount → Bit
  | .single => 0
  | .two => 1

def LineCount.ofBit (b : Bit) : LineCount := if b = 0 then .single else .two

def DisplayState.toBit : DisplayState → Bit
  | .off => 0
  | .on => 1

def DisplayState.ofBit (b : Bit) : DisplayState := if b = 0 then .off else .on

def CursorState.toBit : CursorState → Bit
  | .off => 0
  | .on => 1

def CursorState.ofBit (b : Bit) : CursorState := if b = 0 then .off else .on

def BlinkState.toBit : BlinkState → Bit
  | .off => 0
  | .on => 1

def BlinkState.ofBit (b : Bit) : BlinkState := if b = 0 then .off else .on

def EntryDirection.toBit : EntryDirection → Bit
  | .left => 0
  | .right => 1

def EntryDirection.ofBit (b : Bit) : EntryDirection := if b = 0 then .left else .right

def AutoShift.toBit : AutoShift → Bit
  | .off => 0
  | .on => 1

def AutoShift.ofBit (b : Bit) : AutoShift := if b = 0 then .off else .on

def ShiftObject.toBit : ShiftObject → Bit
  | .cursor => 0
  | .display => 1

def ShiftObject.ofBit (b : Bit) : ShiftObject := if b = 0 then .cursor else .display

def ShiftDirection.toBit : ShiftDirection → Bit
  | .left => 0
  | .right => 1

def ShiftDirection.ofBit (b : Bit) : ShiftDirection := if b = 0 then .left else .right

/-- The width bit `W`: `FourBit` = 0, `EightBit` = 1. -/
def BusMode.toBit : BusMode → Bit
  | .fourBit => 0
  | .eightBit => 1

def BusMode.ofBit (b : Bit) : BusMode := if b = 0 then .fourBit else .eightBit

/-! ### Fields of a command word (30_encoding.md R81, R82) -/

def opField (w : CmdWord) : BitVec 2 := w.extractLsb' 10 2
def payloadField (w : CmdWord) : BitVec 10 := w.extractLsb' 0 10
def rsField (w : CmdWord) : Bit := w.extractLsb' 9 1
def rwField (w : CmdWord) : Bit := w.extractLsb' 8 1
def byteField (w : CmdWord) : Byte := w.extractLsb' 0 8
def rawReservedField (w : CmdWord) : BitVec 6 := w.extractLsb' 4 6
def nibbleField (w : CmdWord) : Nibble := w.extractLsb' 0 4

/-- Bit `i` of a byte as a one-bit number. -/
def byteBit (b : Byte) (i : Nat) : Bit := b.extractLsb' i 1

/-! ### Decoding (30_encoding.md R88) -/

/-- The Instruction a byte with `rs = 0, rw = 0` is, the six patterns in the order of R88. -/
def decodeInstructionByte (b : Byte) : Instr :=
  if b &&& 0xE7 = 0x20 then .funcset (BusMode.ofBit (byteBit b 4)) (LineCount.ofBit (byteBit b 3))
  else if b &&& 0xF3 = 0x10 then .shift (ShiftObject.ofBit (byteBit b 3)) (ShiftDirection.ofBit (byteBit b 2))
  else if b &&& 0xF8 = 0x08 then
    .dispctl (DisplayState.ofBit (byteBit b 2)) (CursorState.ofBit (byteBit b 1)) (BlinkState.ofBit (byteBit b 0))
  else if b &&& 0xFC = 0x04 then .entry (EntryDirection.ofBit (byteBit b 1)) (AutoShift.ofBit (byteBit b 0))
  else if b &&& 0xFF = 0x02 then .home
  else if b &&& 0xFF = 0x01 then .clear
  else .irwrite b

/-- "A decoder reads `op` first. For `SEND` it then reads `rw`, then `rs`, then matches the byte" (R88). Total: each of
the 4096 words is an instruction, the reserved ones of R87 too, under their own names. -/
def decode (w : CmdWord) : Instr :=
  if opField w = 0 then
    if rwField w = 1 then .reservedSendRead (rsField w) (byteField w)
    else if rsField w = 1 then .wrdata (byteField w)
    else decodeInstructionByte (byteField w)
  else if opField w = 1 then
    if rawReservedField w = 0 then .rawnib (nibbleField w)
    else .reservedRawnibBits (rawReservedField w) (nibbleField w)
  else if opField w = 2 then
    if payloadField w = 0 then .poll
    else .reservedPollBits (payloadField w)
  else .reservedOp (payloadField w)

/-- Why a number is no command word. -/
inductive DecodeError where
  /-- A bit above bit 11 is set: the command port has 12 lines (30_encoding.md R80). -/
  | tooWide
  deriving DecidableEq, Repr

/-- Decoding of any number: a command word, or rejected by name. -/
def decodeNat (n : Nat) : Except DecodeError Instr :=
  if n < 4096 then .ok (decode (BitVec.ofNat 12 n)) else .error .tooWide

/-- The instruction the decoder reads from a command word whose bits are `w`, of which the table gives `nbits`. -/
def decodeTableWord (nbits w : Nat) : Option Instr :=
  match decodeNat (w % 2 ^ nbits) with
  | .ok i => some i
  | .error _ => none

/-! ### Encoding (the "encoding" column of spec/opcode_table.json) -/

/-- The command word of an instruction. -/
def encode : Instr → CmdWord
  | .send rs rw byte => (0b00#2 ++ rs ++ rw ++ byte : BitVec 12)
  | .irwrite byte => (0b0000#4 ++ byte : BitVec 12)
  | .clear => 0b000000000001#12
  | .home => 0b000000000010#12
  | .entry direction shift => (0b0000000001#10 ++ direction.toBit ++ shift.toBit : BitVec 12)
  | .dispctl display cursor blink => (0b000000001#9 ++ display.toBit ++ cursor.toBit ++ blink.toBit : BitVec 12)
  | .shift object direction => (0b00000001#8 ++ object.toBit ++ direction.toBit ++ 0b00#2 : BitVec 12)
  | .funcset width lines => (0b0000001#7 ++ width.toBit ++ lines.toBit ++ 0b000#3 : BitVec 12)
  | .wrdata byte => (0b0010#4 ++ byte : BitVec 12)
  | .rawnib n => (0b01000000#8 ++ n : BitVec 12)
  | .poll => 0b100000000000#12
  | .reservedSendRead rs byte => (0b00#2 ++ rs ++ 0b1#1 ++ byte : BitVec 12)
  | .reservedRawnibBits reserved n => (0b01#2 ++ reserved ++ n : BitVec 12)
  | .reservedPollBits reserved => (0b10#2 ++ reserved : BitVec 12)
  | .reservedOp payload => (0b11#2 ++ payload : BitVec 12)

/-! ### The opcode table -/

/-- The row an instruction stands for. -/
def Instr.mnemonic : Instr → Mnemonic
  | .send _ _ _ => .SEND
  | .irwrite _ => .IRWRITE
  | .clear => .CLEAR
  | .home => .HOME
  | .entry _ _ => .ENTRY
  | .dispctl _ _ _ => .DISPCTL
  | .shift _ _ => .SHIFT
  | .funcset _ _ => .FUNCSET
  | .wrdata _ => .WRDATA
  | .rawnib _ => .RAWNIB
  | .poll => .POLL
  | .reservedSendRead _ _ => .RESERVED_SEND_READ
  | .reservedRawnibBits _ _ => .RESERVED_RAWNIB_BITS
  | .reservedPollBits _ => .RESERVED_POLL_BITS
  | .reservedOp _ => .RESERVED_OP

/-- The rows of spec/opcode_table.json with their "mask" and "match". -/
def opcodeRows : List OpcodeRow :=
  [⟨.SEND, 0xD00, 0x000⟩, ⟨.IRWRITE, 0xF00, 0x000⟩, ⟨.CLEAR, 0xFFF, 0x001⟩, ⟨.HOME, 0xFFF, 0x002⟩,
    ⟨.ENTRY, 0xFFC, 0x004⟩, ⟨.DISPCTL, 0xFF8, 0x008⟩, ⟨.SHIFT, 0xFF3, 0x010⟩, ⟨.FUNCSET, 0xFE7, 0x020⟩]
  ++ [⟨.WRDATA, 0xF00, 0x200⟩, ⟨.RAWNIB, 0xFF0, 0x400⟩, ⟨.POLL, 0xFFF, 0x800⟩, ⟨.RESERVED_SEND_READ, 0xD00, 0x100⟩,
    ⟨.RESERVED_RAWNIB_BITS, 0xC00, 0x400⟩, ⟨.RESERVED_POLL_BITS, 0xC00, 0x800⟩, ⟨.RESERVED_OP, 0xC00, 0xC00⟩]

def OpcodeRow.fits (r : OpcodeRow) (w : CmdWord) : Bool := w &&& r.mask == r.value

/-- The number of bits in a row's mask. -/
def OpcodeRow.specificity (r : OpcodeRow) : Nat := (List.range 12).countP fun i => r.mask.getLsbD i

end Sys2Proof
end

