-- ==== Sys2Proof/Machine/Operands.lean ====
section
/-! DEFINITION. Operand forms: the byte formulas of the Instruction Encoder (spec/30_encoding.md R85,
spec/41_instruction_encoder.md), the nibble-splitter and mode multiplexer (spec/40_bus_transport.md R121), and what the
data lines carry (spec/10_state.md R32, R33, R34). -/

namespace Sys2Proof.Machine

/-! ### Instruction bytes (R85, R140 to R145) -/

/-- A one-bit operand as an 8-bit value, ready to be shifted into place. -/
def bitByte (b : Bit) : Byte := b.setWidth 8

/-- R140. -/
def clearByte : Byte := 0b0000_0001#8

/-- R141. -/
def homeByte : Byte := 0b0000_0010#8

/-- R142: `0b0000_0100 | direction<<1 | shift`. -/
def entryByte (direction : EntryDirection) (shift : AutoShift) : Byte :=
  0b0000_0100#8 ||| bitByte direction.toBit <<< 1 ||| bitByte shift.toBit

/-- R143: `0b0000_1000 | display<<2 | cursor<<1 | blink`. -/
def dispctlByte (display : DisplayState) (cursor : CursorState) (blink : BlinkState) : Byte :=
  0b0000_1000#8 ||| bitByte display.toBit <<< 2 ||| bitByte cursor.toBit <<< 1 ||| bitByte blink.toBit

/-- R144: `0b0001_0000 | object<<3 | direction<<2`. -/
def shiftByte (object : ShiftObject) (direction : ShiftDirection) : Byte :=
  0b0001_0000#8 ||| bitByte object.toBit <<< 3 ||| bitByte direction.toBit <<< 2

/-- R145: `0b0010_0000 | W<<4 | lines<<3`. -/
def funcsetByte (width : BusMode) (lines : LineCount) : Byte :=
  0b0010_0000#8 ||| bitByte width.toBit <<< 4 ||| bitByte lines.toBit <<< 3

/-- The command word of `SEND rs, rw, byte`: `op = 00` and the Format I word (30_encoding.md R81, R82). -/
def sendWord (rs rw : Bit) (byte : Byte) : CmdWord :=
  rs.setWidth 12 <<< 9 ||| rw.setWidth 12 <<< 8 ||| byte.setWidth 12

/-- The command word of `RAWNIB n`. -/
def rawnibWord (n : Nibble) : CmdWord := 0x400#12 ||| n.setWidth 12

/-- The command word of `POLL`. -/
def pollWord : CmdWord := 0x800#12

/-! ### The nibble-splitter and the mode multiplexer (R61, R62, R121) -/

/-- "`(B & 0xF0) >> 4`". -/
def highNibble (b : Byte) : Nibble := ((b &&& 0xF0) >>> 4).setWidth 4

/-- "`B & 0x0F`". -/
def lowNibble (b : Byte) : Nibble := (b &&& 0x0F).setWidth 4

/-- `DOUT[7:4] <- n`, the rest of `DOUT` unchanged: bit `j` of the nibble goes to `DOUT[4 + j]` (R62). -/
def upperLines (n : Nibble) (dout : Byte) : Byte := n.setWidth 8 <<< 4 ||| dout &&& 0x0F

/-- The `EightBit` raw byte of a nibble, `{n, 0b0000}` (30_encoding.md R85). -/
def rawByte (n : Nibble) : Byte := n.setWidth 8 <<< 4

/-! ### What the pins carry -/

/-- The level the block drives on line `D[i]`: `DOUT[i]` where `DDIR[i] = 1`, nothing where it is 0 (R32, R33). -/
def State.driven (s : State) (i : Fin 8) : Option Bit :=
  if s.ddir.getLsbD i then some (byteBit s.dout i) else none

/-- Whether a weak pull-up is what the block puts on line `D[i]`: it "matters only while `DDIR[i] = 0`" (R34). -/
def State.pulledUp (s : State) (i : Fin 8) : Bool := s.dpue.getLsbD i && !s.ddir.getLsbD i

end Sys2Proof.Machine
end

