-- ==== Sys2Proof/Machine/Ops.lean ====
section
/-! DEFINITION. The named operations: one per pin event of spec/20_memory.md R73, acceptance of a command
(spec/40_bus_transport.md R120), the return of one, reset (spec/70_reset_and_hazards.md R210), and the module's answer
(spec/20_memory.md R72).

The block takes no exception and returns from none: "There is no trap mechanism: no handler, no vector, no saved state, no
mode change" (spec/60_exceptions.md R195). Reset, `takeReset`, is the only thing that overrides a micro-step. -/

namespace Sys2Proof.Machine

/-- `SEQ <- q`. -/
def State.goto (s : State) (q : Seq) : State := { s with seq := q }

/-! ### The module (R72) -/

/-- `Module(n)`, the answer to the sample of number `n`, counted from 1. -/
def Oracle.answer (o : Oracle) (n : Nat) : Bit :=
  match o.first[n - 1]? with
  | some b => b
  | none =>
    match o.rest with
    | .cycle b others => ((b :: others)[(n - 1 - o.first.length) % (others.length + 1)]?).getD b
    | .unknown k => Config.moduleAnswer k n

/-- The module's answer to the `j`-th coming sample, `j` from 0: the next sample has the number after those taken since
reset. -/
def State.answer (s : State) (j : Nat) : Bit := s.oracle.answer (s.sampleCount + 1 + j)

/-! ### Pin events (R73) -/

/-- `AUX <- 1` and `DDIR[7] <- 0` and `DPUE[7] <- 1`. -/
def cfg7In (s : State) : State :=
  { s with aux := 1, ddir := s.ddir &&& 0x7F, dpue := s.dpue ||| 0x80, pins := s.pins ++ [.cfg7In] }

/-- `DDIR[7] <- 1` and `DPUE[7] <- 0` and `AUX <- 0`. -/
def cfg7Out (s : State) : State :=
  { s with aux := 0, ddir := s.ddir ||| 0x80, dpue := s.dpue &&& 0x7F, pins := s.pins ++ [.cfg7Out] }

/-- `RS <- rs` and `RW <- rw`, in one micro-step (10_state.md R35). -/
def ctl (rs rw : Bit) (s : State) : State :=
  { s with rs := rs, rw := rw, pins := s.pins ++ [.ctl rs rw] }

/-- `E <- 1`. -/
def eHi (s : State) : State := { s with e := 1, pins := s.pins ++ [.eHi] }

/-- A `Delay(t)` call and its return: "an event in the trace and nothing else" (00_scope.md R14). -/
def dly (t : Nat) (s : State) : State := { s with pins := s.pins ++ [.dly t] }

/-- `BF <- DIN[7]`, where the module puts the level `din7` on the line. -/
def smp (din7 : Bit) (s : State) : State := { s with bf := sampledFlag din7, pins := s.pins ++ [.smp din7] }

/-- `E <- 0`, and the record of the bus cycle that ends here. `sampled` is the bit sampled in this pulse, if any. -/
def eLo (sampled : Option Bit) (s : State) : State :=
  { s with
    e := 0
    pins := s.pins ++ [.eLo]
    bus := s.bus ++ [{ rs := s.rs, rw := s.rw, ddir := s.ddir, dout := s.dout, smp := sampled }] }

/-- `DDIR <- 0xFF`. -/
def dirAll (s : State) : State := { s with ddir := 0xFF, pins := s.pins ++ [.dirAll] }

/-- `DOUT <- v`. -/
def dat8 (v : Byte) (s : State) : State := { s with dout := v, pins := s.pins ++ [.dat8 v] }

/-- `DOUT[7:4] <- n`. -/
def dat4 (n : Nibble) (s : State) : State :=
  { s with dout := upperLines n s.dout, pins := s.pins ++ [.dat4 n] }

/-! ### Beginning and end of a command (R120) -/

/-- Acceptance of `w`, the next micro-step being `first`: the command latch is written "once, together"
(10_state.md R31). -/
def accept (w : CmdWord) (first : Seq) (s : State) : State :=
  { s with
    op := opField w
    crs := rsField w
    crw := rwField w
    cdata := byteField w
    seq := first
    pins := s.pins ++ [.acc w] }

/-- "`SEQ <- IDLE`, `Ret` is appended to the trace". -/
def ret (s : State) : State := { s with seq := .IDLE, pins := s.pins ++ [.ret] }

/-! ### Reset (70_reset_and_hazards.md R210) -/

/-- The reset input is asserted in this step. Every element takes its value of 10_state.md R42 and both traces restart
empty, and with them the sample number; the command latch, "unspecified", takes a free value (notes/assumptions/1.md). Reset
does not reset the host or the instance's parameters, and the module is the same oracle from its first answer on. -/
def takeReset (s : State) : State :=
  { State.resetOf s.params with
    op := opField (Config.freeLatch s.draws)
    crs := rsField (Config.freeLatch s.draws)
    crw := rwField (Config.freeLatch s.draws)
    cdata := byteField (Config.freeLatch s.draws)
    port := s.port
    life := s.life
    oracle := s.oracle
    resetIn := s.resetIn
    draws := s.draws + 1 }

/-! ### Refusals (60_exceptions.md R191) -/

/-- "the code the spec assigns"; none to an arm without a meaning. -/
def refusalCode (r : Refusal) : Option Nat :=
  if r = .reservedOp then some 1
  else if r = .sendRead then some 2
  else if r = .reservedBits then some 3
  else none

end Sys2Proof.Machine
end

