-- ==== Sys2Proof/Machine/Sequencer.lean ====
section
/-! DEFINITION. The transition table of `SEQ` (spec/40_bus_transport.md R118), one arm per row, and how a command meets it. -/

namespace Sys2Proof.Machine

/-- One micro-step of the sequencer with the module `oracle`, any function from sample number to bit (20_memory.md R72): the
row of R118 for `SEQ`. In `IDLE` without a request, nothing. The oracle enters at `P_SMP` only. Each successor is written as the table writes it; only `P_REST` with an `OP` the table does not list has none. -/
def advanceWith (oracle : Nat → Bit) (s : State) : Host.Outcome State Fault Refusal :=
  match s.seq with
  | .IDLE => .next s
  | .P_CFG => .next ((cfg7In s).goto .P_CTRL)
  | .P_CTRL => .next ((ctl 0 1 s).goto .P_EH)
  | .P_EH => .next ((eHi s).goto .P_PW)
  | .P_PW => .next ((dly s.params.tPW s).goto .P_SMP)
  | .P_SMP => .next ((smp (oracle (s.sampleCount + 1)) s).goto .P_EL)
  | .P_EL =>
    .next ((eLo (some s.bf) s).goto (match s.mode with | .fourBit => .P_DEH | .eightBit => .P_TEST))
  | .P_DEH => .next ((eHi s).goto .P_DPW)
  | .P_DPW => .next ((dly s.params.tPW s).goto .P_DEL)
  | .P_DEL => .next ((eLo none s).goto .P_TEST)
  | .P_TEST => .next (s.goto (if s.stillBusy then .P_EH else .P_REST))
  | .P_REST =>
    if s.op = 0 then .next ((cfg7Out s).goto .S_CTRL)
    else if s.op = 2 then .next (ret (cfg7Out s))
    else .fault .latchMismatch
  | .S_CTRL =>
    .next ((ctl s.crs s.crw s).goto (match s.mode with | .eightBit => .S_DIR | .fourBit => .S_D0))
  | .S_DIR => .next ((dirAll s).goto .S_D0)
  | .S_D0 =>
    match s.mode with
    | .eightBit => .next ((dat8 s.cdata s).goto .S_EH0)
    | .fourBit => .next ((dat4 (highNibble s.cdata) s).goto .S_EH0)
  | .S_EH0 => .next ((eHi s).goto .S_PW0)
  | .S_PW0 => .next ((dly s.params.tPW s).goto .S_EL0)
  | .S_EL0 =>
    match s.mode with
    | .eightBit => .next (ret (eLo none s))
    | .fourBit => .next ((eLo none s).goto .S_D1)
  | .S_D1 => .next ((dat4 (lowNibble s.cdata) s).goto .S_EH1)
  | .S_EH1 => .next ((eHi s).goto .S_PW1)
  | .S_PW1 => .next ((dly s.params.tPW s).goto .S_EL1)
  | .S_EL1 => .next (ret (eLo none s))
  | .R_CTRL =>
    .next ((ctl 0 0 s).goto (match s.mode with | .eightBit => .R_DIR | .fourBit => .R_D))
  | .R_DIR => .next ((dirAll s).goto .R_D)
  | .R_D =>
    match s.mode with
    | .eightBit => .next ((dat8 (rawByte (lowNibble s.cdata)) s).goto .R_EH)
    | .fourBit => .next ((dat4 (lowNibble s.cdata) s).goto .R_EH)
  | .R_EH => .next ((eHi s).goto .R_PW)
  | .R_PW => .next ((dly s.params.tPW s).goto .R_EL)
  | .R_EL => .next (ret (eLo none s))

/-- One micro-step with the module the state holds. -/
def advance (s : State) : Host.Outcome State Fault Refusal := advanceWith s.oracle.answer s

/-- A step of the block with command word `w` requested at the port, its first micro-step being `first` (R120). With
`READY = 1` the word is accepted. With `READY = 0` "a request is not accepted and has no effect: the host waits", and the
command in progress takes its next micro-step. -/
def present (w : CmdWord) (first : Seq) (s : State) : Host.Outcome State Fault Refusal :=
  if s.ready then .next (accept w first s) else advance s

end Sys2Proof.Machine
end

