-- ==== Sys2Proof/Machine/Transport.lean ====
section
/-! DEFINITION. The meanings of the three commands of the Bus Transport (spec/40_bus_transport.md R115, R116, R117).

A meaning is ONE step of the block with that command at its port: acceptance when `READY`, else the next micro-step of the
command in progress. The rest of a command is the rows of R118 that its latch and `SEQ` select (Machine/Sequencer.lean). -/

namespace Sys2Proof.Machine

/-- `SEND rs, rw, byte` (R115). "if rw = 1: raise Refused(SendRead)". -/
def execSend (rs rw : Bit) (byte : Byte) (s : State) : Host.Outcome State Fault Refusal :=
  if rw = 1 then .refused .sendRead else present (sendWord rs rw byte) .P_CFG s

/-- `RAWNIB n` (R116). -/
def execRawnib (n : Nibble) (s : State) : Host.Outcome State Fault Refusal :=
  present (rawnibWord n) .R_CTRL s

/-- `POLL` (R117). -/
def execPoll (s : State) : Host.Outcome State Fault Refusal :=
  present pollWord .P_CFG s

end Sys2Proof.Machine
end

