-- ==== Sys2Proof/Machine/Encoder.lean ====
section
/-! DEFINITION. The meanings of the Instruction Encoder's instructions. "Every mnemonic of this file is one `SEND` command"
(spec/41_instruction_encoder.md R148), with the byte of its own rule. -/

namespace Sys2Proof.Machine

/-- `SEND 0, 0, byte`, the byte carried unchanged (30_encoding.md R89). -/
def execIrwrite (byte : Byte) (s : State) : Host.Outcome State Fault Refusal := execSend 0 0 byte s

/-- R140. -/
def execClear (s : State) : Host.Outcome State Fault Refusal := execSend 0 0 clearByte s

/-- R141. -/
def execHome (s : State) : Host.Outcome State Fault Refusal := execSend 0 0 homeByte s

/-- R142. -/
def execEntry (direction : EntryDirection) (shift : AutoShift) (s : State) : Host.Outcome State Fault Refusal :=
  execSend 0 0 (entryByte direction shift) s

/-- R143. -/
def execDispctl (display : DisplayState) (cursor : CursorState) (blink : BlinkState) (s : State) :
    Host.Outcome State Fault Refusal :=
  execSend 0 0 (dispctlByte display cursor blink) s

/-- R144. -/
def execShift (object : ShiftObject) (direction : ShiftDirection) (s : State) : Host.Outcome State Fault Refusal :=
  execSend 0 0 (shiftByte object direction) s

/-- R145. A `W` that disagrees with `MODE` "is not stopped by the transport". -/
def execFuncset (width : BusMode) (lines : LineCount) (s : State) : Host.Outcome State Fault Refusal :=
  execSend 0 0 (funcsetByte width lines) s

/-- R146: `SEND 1, 0, byte`. -/
def execWrdata (byte : Byte) (s : State) : Host.Outcome State Fault Refusal := execSend 1 0 byte s

end Sys2Proof.Machine
end

