-- ==== Sys2Proof/Machine/Reserved.lean ====
section
/-! DEFINITION. The command words the spec gives no meaning (spec/30_encoding.md R87): "the model refuses each by name and
performs no micro-step for it". A refusal "is decided at acceptance, from the command word alone; it does not depend on
`MODE` or on the block's state" (spec/60_exceptions.md R191). -/

namespace Sys2Proof.Machine

/-- `SEND` with `rw = 1`. -/
def execReservedSendRead (_s : State) : Host.Outcome State Fault Refusal := .refused .sendRead

/-- `RAWNIB` with nonzero reserved payload bits. -/
def execReservedRawnibBits (_s : State) : Host.Outcome State Fault Refusal := .refused .reservedBits

/-- `POLL` with a nonzero payload. -/
def execReservedPollBits (_s : State) : Host.Outcome State Fault Refusal := .refused .reservedBits

/-- `op = 11`. -/
def execReservedOp (_s : State) : Host.Outcome State Fault Refusal := .refused .reservedOp

end Sys2Proof.Machine
end

