-- ==== Sys2Proof/Machine/Dispatch.lean ====
section
/-! DEFINITION. One arm per instruction (spec/opcode_table.json). -/

namespace Sys2Proof.Machine

def exec (i : Instr) (s : State) : Host.Outcome State Fault Refusal :=
  match i with
  | .send rs rw byte => Sys2Proof.Machine.execSend rs rw byte s
  | .irwrite byte => Sys2Proof.Machine.execIrwrite byte s
  | .clear => Sys2Proof.Machine.execClear s
  | .home => Sys2Proof.Machine.execHome s
  | .entry direction shift => Sys2Proof.Machine.execEntry direction shift s
  | .dispctl display cursor blink => Sys2Proof.Machine.execDispctl display cursor blink s
  | .shift object direction => Sys2Proof.Machine.execShift object direction s
  | .funcset width lines => Sys2Proof.Machine.execFuncset width lines s
  | .wrdata byte => Sys2Proof.Machine.execWrdata byte s
  | .rawnib n => Sys2Proof.Machine.execRawnib n s
  | .poll => Sys2Proof.Machine.execPoll s
  | .reservedSendRead _ _ => Sys2Proof.Machine.execReservedSendRead s
  | .reservedRawnibBits _ _ => Sys2Proof.Machine.execReservedRawnibBits s
  | .reservedPollBits _ => Sys2Proof.Machine.execReservedPollBits s
  | .reservedOp _ => Sys2Proof.Machine.execReservedOp s

end Sys2Proof.Machine
end

