-- ==== Sys2Proof/Machine/DisplayController.lean ====
section
/-! DEFINITION. The Display Controller: the host's public operations as sequences of host actions
(spec/42_display_controller.md). Host-side software around the block (R160): the block holds none of it. -/

namespace Sys2Proof.Machine

/-- One line of 30_encoding.md R91 that is a command word. -/
def commandLine (i : Instr) : HostAction := .command (encode i)

/-- `FUNCSET lines`, "with `W` taken from `MODE`" (30_encoding.md R91). -/
def funcsetLine (p : Params) (lines : LineCount) : HostAction := commandLine (.funcset p.mode lines)

/-- The lines of `initialize()` marked "FourBit only" (R161). -/
def switchToFourBit (p : Params) : List HostAction :=
  match p.mode with
  | .eightBit => []
  | .fourBit => [commandLine (.rawnib 0b0010), .delay p.tInit4]

/-- `initialize()`, the power-on sequence (R161), between the life-cycle changes of R171. -/
def initializeLines (p : Params) : List HostAction :=
  [.enter .initializing,
    .delay p.tPowerOn, commandLine (.rawnib 0b0011),
    .delay p.tInit1, commandLine (.rawnib 0b0011),
    .delay p.tInit2, commandLine (.rawnib 0b0011),
    .delay p.tInit3]
  ++ switchToFourBit p
  ++ [funcsetLine p p.initLines,
    commandLine (.dispctl p.initDisplay p.initCursor p.initBlink),
    commandLine (.entry .right .off),
    .enter .ready]

/-- The loop of `write_text` (R169) from position index `i` on. -/
def textLines (p : Params) : Nat → List Byte → List HostAction
  | _, [] => []
  | i, b :: rest =>
    (if i = scrollThreshold then [commandLine (.entry .right .on)] else [])
    ++ (if scrollThreshold ≤ i then [.delay p.tScroll] else [])
    ++ commandLine (.wrdata b) :: textLines p (i + 1) rest

/-- `write_text(bytes)` (R169). -/
def writeTextLines (p : Params) (bytes : List Byte) : List HostAction :=
  [commandLine .clear, commandLine .home] ++ textLines p 0 bytes ++ [commandLine (.entry .right .off)]

/-- The expansion of a public operation (30_encoding.md R92). -/
def expand (p : Params) : PublicOp → List HostAction
  | .initializeDisplay => initializeLines p
  | .configureDisplay display cursor blink => [commandLine (.dispctl display cursor blink)]
  | .setEntryMode direction shift => [commandLine (.entry direction shift)]
  | .setFunction lines => [funcsetLine p lines]
  | .clearDisplay => [commandLine .clear]
  | .returnHome => [commandLine .home]
  | .shift object direction => [commandLine (.shift object direction)]
  | .turnDisplayOff => [commandLine (.dispctl .off .off .off)]
  | .writeText bytes => writeTextLines p bytes
  | .appendByte byte => [commandLine (.wrdata byte)]

/-- Whether the life cycle lets the host issue an operation: "Every pseudo-instruction other than `initialize()` is to be
issued in `Ready` only" (R171). The host checks it (`hostCall`); the block does not. -/
def mayIssue (l : LifeCycle) : PublicOp → Bool
  | .initializeDisplay => true
  | .configureDisplay _ _ _ | .setEntryMode _ _ | .setFunction _ | .clearDisplay | .returnHome | .shift _ _
  | .turnDisplayOff | .writeText _ | .appendByte _ => l == .ready

/-- The lines the host issues for a call of `op`: the operation's expansion where the life cycle lets it be issued, none
otherwise (92_eei_decisions.md D26: "A host model must add the restriction"). DESIGN CHOICE: notes/assumptions/12.md. -/
def issuedLines (l : LifeCycle) (p : Params) (op : PublicOp) : List HostAction :=
  if mayIssue l op then expand p op else []

/-- The instructions a sequence of host actions sends. -/
def instructionsOf (as : List HostAction) : List Instr :=
  as.filterMap fun a => match a with
    | .command w => some (decode w)
    | .delay _ => none
    | .enter _ => none
    | .call _ => none

/-- How many delays of `t` a sequence of host actions holds. -/
def delaysOf (t : Nat) (as : List HostAction) : Nat :=
  as.countP fun a => a == .delay t

end Sys2Proof.Machine
end

