-- ==== Sys2Proof/Machine/Port.lean ====
section
/-! DEFINITION. The command port (spec/40_bus_transport.md R120) and the host behind it: taking the next request, and the
host's own actions, which change no state of the block (spec/42_display_controller.md R160, R171, R172). -/

namespace Sys2Proof.Machine

/-- What the host has lined up becomes `rest`. -/
def State.withPort (s : State) (rest : List HostAction) : State := { s with port := rest }

/-- The request at the port and the state with it taken; `none` when the host requests nothing. -/
def takeRequest (s : State) : Option (HostAction × State) :=
  match s.port with
  | [] => none
  | a :: rest => some (a, s.withPort rest)

/-- `DELAY t`: "appends `Dly(t)` to the pin-event trace and changes no state of the block" (R172). -/
def hostDelay (t : Nat) (s : State) : State := dly t s

/-- The host's life cycle moves on (R171). -/
def hostEnter (l : LifeCycle) (s : State) : State := { s with life := l }

/-- The host calls `op`: the lines it issues go ahead of everything else it has lined up, so that "two operations do not
interleave" (R160). Out of its place in the life cycle the call is not issued (R171). -/
def hostCall (op : PublicOp) (s : State) : State := { s with port := issuedLines s.life s.params op ++ s.port }

/-- The host's program goes on with a call of `op`. -/
def callOp (op : PublicOp) (s : State) : State := { s with port := s.port ++ [.call op] }

/-- Whether the reset input is asserted in the coming step. -/
def State.resetAsserted (s : State) : Bool := s.resetIn.headD false

/-- The level of the reset input is sampled once a step. -/
def State.resetSampled (s : State) : State := { s with resetIn := s.resetIn.tail }

/-- The command word `w` requested at a port that is ready, ahead of what else the host has lined up, and reset not
asserted in the coming step. -/
def placeCommand (w : CmdWord) (s : State) : State :=
  { s with seq := .IDLE, port := .command w :: s.port, resetIn := [] }

end Sys2Proof.Machine
end

