-- ==== Sys2Proof/Machine/Step.lean ====
section
/-! DEFINITION. One step of the machine: reset if it is asserted, else in `IDLE` the host's next request, else one
micro-step of the command in progress (spec/40_bus_transport.md R118, R120, spec/60_exceptions.md R194). -/

namespace Sys2Proof.Machine

/-- The block in `IDLE`: the host's next request, if there is one. -/
def serveHost (s : State) : Host.Outcome State Fault Refusal :=
  match takeRequest s with
  | none => .next s
  | some (.command w, s') => exec (decode w) s'
  | some (.delay t, s') => .next (hostDelay t s')
  | some (.enter l, s') => .next (hostEnter l s')
  | some (.call op, s') => .next (hostCall op s')

/-- A step in which reset is not asserted. -/
def runBlockWith (oracle : Nat → Bit) (s : State) : Host.Outcome State Fault Refusal :=
  if s.ready then serveHost s else advanceWith oracle s

/-- A step with the module `oracle`, any function from sample number to bit (20_memory.md R72).
"The only event that can coincide with a micro-step is reset, and reset wins" (60_exceptions.md R194). -/
def stepWith (oracle : Nat → Bit) (s : State) : Host.Outcome State Fault Refusal :=
  if s.resetAsserted then .next (takeReset s.resetSampled) else runBlockWith oracle s.resetSampled

/-- A step with the module the state holds. -/
def step (s : State) : Host.Outcome State Fault Refusal := stepWith s.oracle.answer s

/-- `s` with the command word `w`, of which the opcode table gives `nbits` bits, at the command port of a block that is
ready. How a program comes to run: notes/assumptions/4.md. -/
def State.withFetchWord (s : State) (nbits w : Nat) : State := placeCommand (BitVec.ofNat 12 (w % 2 ^ nbits)) s

end Sys2Proof.Machine
end

