-- ==== Sys2Proof/Machine/Procedures.lean ====
section
/-! DEFINITION. The procedures of spec/40_bus_transport.md (R110 to R117) and the bus primitives of spec/00_scope.md R12 as
whole pieces, written from the spec's pseudocode and not from the transition table. The machine runs the table
(Machine/Sequencer.lean); that the two agree is stated in Certificates. None of these touches `SEQ`. -/

namespace Sys2Proof.Machine

/-- `Pulse()` (R110). -/
def pulse (s : State) : State := eLo none (dly s.params.tPW (eHi s))

/-- `PulseSample()` (R111) with the module's next answer on the line, the sampled bit left in `BF`. -/
def pulseSample (s : State) : State :=
  let sampled := smp (s.answer 0) (dly s.params.tPW (eHi s))
  eLo (some sampled.bf) sampled

/-- `MemWrite(rs, 8, v)`, with `RS` and `RW` already on the lines (00_scope.md R12). -/
def memWrite8 (v : Byte) (s : State) : State := pulse (dat8 v s)

/-- `MemWrite(rs, 4, n)`, with `RS` and `RW` already on the lines (00_scope.md R12). -/
def memWrite4 (n : Nibble) (s : State) : State := pulse (dat4 n s)

/-- `MemRead(0, 1)`: "return the one bit sampled from `D[7]`" (00_scope.md R12). -/
def memRead (s : State) : Bit × State := ((pulseSample s).bf, pulseSample s)

/-- `DriveByte8(B)` (R113). -/
def driveByte8 (b : Byte) (s : State) : State := memWrite8 b (dirAll s)

/-- `DriveByte4(B)` (R114). -/
def driveByte4 (b : Byte) (s : State) : State := memWrite4 (lowNibble b) (memWrite4 (highNibble b) s)

/-- The transfer strategy of the instance (R115). -/
def driveByte (b : Byte) (s : State) : State :=
  match s.mode with
  | .eightBit => driveByte8 b s
  | .fourBit => driveByte4 b s

/-- One turn of the poll's loop: the sampling pulse and, in `FourBit`, the dummy pulse (R112, steps 3 and 4). -/
def pollIteration (s : State) : State :=
  match s.mode with
  | .eightBit => pulseSample s
  | .fourBit => pulse (pulseSample s)

/-- The poll's loop cut off after `limit` iterations: `none` says that it has not come out by then. The loop itself has no
bound (R112, 60_exceptions.md R192); the cut is this function's, never the machine's. -/
def pollLoop : Nat → State → Option State
  | 0, _ => none
  | limit + 1, s =>
    if (pollIteration s).stillBusy then pollLoop limit (pollIteration s) else some (pollIteration s)

/-- `WaitWhileBusy()` (R112), its loop cut off after `limit` iterations. -/
def waitWhileBusy (limit : Nat) (s : State) : Option State :=
  (pollLoop limit (ctl 0 1 (cfg7In s))).map cfg7Out

/-- The body of `SEND` (R115), its poll cut off after `limit` iterations. -/
def sendBody (limit : Nat) (rs rw : Bit) (byte : Byte) (s : State) : Option State :=
  (waitWhileBusy limit s).map fun s' => driveByte byte (ctl rs rw s')

/-- The body of `RAWNIB` (R116). -/
def rawnibBody (n : Nibble) (s : State) : State :=
  match s.mode with
  | .eightBit => pulse (dat8 (rawByte n) (dirAll (ctl 0 0 s)))
  | .fourBit => pulse (dat4 n (ctl 0 0 s))

end Sys2Proof.Machine
end

