-- ==== Sys2Proof/Safety.lean ====
section
/-! DEFINITION. The terms claims are stated in: the invariant of the machine, the bus cycles and pin events the spec's rules
give for a command, the premise `ModuleEventuallyReady`, the state a command leaves, and what the traces must look like.
No definition here looks at `AUX` (spec/93_implementation_defined.md U6). -/

namespace Sys2Proof.Machine

/-! ### Runs -/

/-- `k` steps, stopping at the first fault or refusal: the host's `Core.run` of this machine (Laws/Step.lean proves them
equal), at the machine's own types. -/
def runSteps : Nat → State → Host.Outcome State Fault Refusal
  | 0, s => .next s
  | k + 1, s =>
    match step s with
    | .next s' => runSteps k s'
    | .fault r => .fault r
    | .refused r => .refused r

/-- `k` steps with the module `oracle`, any function from sample number to bit (20_memory.md R72). -/
def runWith (oracle : Nat → Bit) : Nat → State → Host.Outcome State Fault Refusal
  | 0, s => .next s
  | k + 1, s =>
    match stepWith oracle s with
    | .next s' => runWith oracle k s'
    | .fault r => .fault r
    | .refused r => .refused r

/-! ### The sequencer states in groups -/

/-- The "group" column of 10_state.md R38. -/
inductive SeqGroup where
  | idle
  | poll
  | send
  | raw
  deriving DecidableEq, Repr

def Seq.group : Seq → SeqGroup
  | .IDLE => .idle
  | .P_CFG | .P_CTRL | .P_EH | .P_PW | .P_SMP | .P_EL | .P_DEH | .P_DPW | .P_DEL | .P_TEST | .P_REST => .poll
  | .S_CTRL | .S_DIR | .S_D0 | .S_EH0 | .S_PW0 | .S_EL0 | .S_D1 | .S_EH1 | .S_PW1 | .S_EL1 => .send
  | .R_CTRL | .R_DIR | .R_D | .R_EH | .R_PW | .R_EL => .raw

/-- Between an `EHi` and its `ELo`: inside an enable pulse. -/
def Seq.inPulse (q : Seq) : Bool :=
  [.P_PW, .P_SMP, .P_EL, .P_DPW, .P_DEL, .S_PW0, .S_EL0, .S_PW1, .S_EL1, .R_PW, .R_EL].contains q

/-- Between `Cfg7In` and `Cfg7Out`: `D[7]` is an input. -/
def Seq.lineIn (q : Seq) : Bool := q.group == .poll && q != .P_CFG

/-- In a poll, after its `Ctl(0,1)`. -/
def Seq.reading (q : Seq) : Bool := q.lineIn && q != .P_CTRL

/-- In the poll's loop, where `BF` may be 1. -/
def Seq.sampling (q : Seq) : Bool := q.reading && q != .P_REST

/-- The states "in `EightBit` only" of R38. -/
def Seq.eightOnly (q : Seq) : Bool := q == .S_DIR || q == .R_DIR

/-- The states "in `FourBit` only" of R38. -/
def Seq.fourOnly (q : Seq) : Bool := [.P_DEH, .P_DPW, .P_DEL, .S_D1, .S_EH1, .S_PW1, .S_EL1].contains q

/-! ### The invariant -/

/-- What every step keeps: 10_state.md R43 and what R31 to R38 say of a command in progress, by the value of `SEQ`. -/
structure State.Inv (s : State) : Prop where
  /-- R35: `E` "is 0 except inside an enable pulse". -/
  enable : s.e = if s.seq.inPulse then 1 else 0
  /-- R33, R43 item 2: `0x7F` while the line is an input, else `0xFF`. -/
  direction : s.ddir = if s.seq.lineIn then 0x7F else 0xFF
  /-- R34, R43 item 2: `0x80` while the line is an input, else `0x00`. -/
  pullUp : s.dpue = if s.seq.lineIn then 0x80 else 0x00
  /-- R37: after a poll completes `BF = 0`. -/
  flagClear : s.seq.sampling = false → s.bf = 0
  /-- R112, step 2: a poll reads the status. -/
  statusRead : s.seq.reading = true → s.rs = 0 ∧ s.rw = 1
  /-- R118: a poll is in a `SEND` that writes, or in a `POLL`. -/
  pollLatch : s.seq.group = .poll → (s.op = 0 ∧ s.crw = 0) ∨ s.op = 2
  /-- R118: the send states are a `SEND`'s. -/
  sendLatch : s.seq.group = .send → s.op = 0 ∧ s.crw = 0
  /-- R118: the raw states are a `RAWNIB`'s. -/
  rawLatch : s.seq.group = .raw → s.op = 1
  /-- R115: after its `Ctl`, a `SEND` keeps its levels on the lines. -/
  sendLines : s.seq.group = .send → s.seq ≠ .S_CTRL → s.rs = s.crs ∧ s.rw = s.crw
  /-- R116: after its `Ctl`, a `RAWNIB` keeps `(0, 0)` on the lines. -/
  rawLines : s.seq.group = .raw → s.seq ≠ .R_CTRL → s.rs = 0 ∧ s.rw = 0
  /-- R38. -/
  eightOnly : s.seq.eightOnly = true → s.mode = .eightBit
  /-- R38. -/
  fourOnly : s.seq.fourOnly = true → s.mode = .fourBit
  /-- R43 item 5. -/
  lowLines : s.mode = .fourBit → s.dout &&& 0x0F = 0

/-! ### Bus cycles (20_memory.md R60, R73) -/

/-- `Wr8(rs, v)`. -/
def wr8 (rs : Bit) (v : Byte) : BusCycle := { rs := rs, rw := 0, ddir := 0xFF, dout := v, smp := none }

/-- `Wr4(rs, n)`: `{n, DOUT[3:0]}` on the lines. -/
def wr4 (rs : Bit) (n : Nibble) (dout : Byte) : BusCycle :=
  { rs := rs, rw := 0, ddir := 0xFF, dout := upperLines n dout, smp := none }

/-- `Rd(b)`. -/
def rd (b : Bit) (dout : Byte) : BusCycle := { rs := 0, rw := 1, ddir := 0x7F, dout := dout, smp := some b }

/-- `RdX`, the dummy pulse. -/
def rdX (dout : Byte) : BusCycle := { rs := 0, rw := 1, ddir := 0x7F, dout := dout, smp := none }

/-- "Four shapes occur" (R73): which of them a record is, and in which mode. -/
inductive BusCycle.Shape (m : BusMode) : BusCycle → Prop where
  | write8 (rs : Bit) (v : Byte) : m = .eightBit → Shape m (wr8 rs v)
  | write4 (rs : Bit) (n : Nibble) (dout : Byte) : m = .fourBit → dout &&& 0x0F = 0 → Shape m (wr4 rs n dout)
  | read (b : Bit) (dout : Byte) : Shape m (rd b dout)
  | dummy (dout : Byte) : m = .fourBit → Shape m (rdX dout)

/-- Every bus cycle since reset has one of the four shapes. -/
def State.BusShaped (s : State) : Prop := ∀ c ∈ s.bus, BusCycle.Shape s.mode c

/-- A cycle that writes to the module. -/
def BusCycle.isWrite (c : BusCycle) : Bool := c.rw == 0

/-- A dummy pulse: a read without a sample. -/
def BusCycle.isDummy (c : BusCycle) : Bool := c.rw == 1 && c.smp == none

/-! ### What the rules give for a whole command -/

/-- The pin events of one turn of the poll's loop that samples `b` (R112). -/
def iterationEvents (m : BusMode) (tPW : Nat) (b : Bit) : List PinEvent :=
  [.eHi, .dly tPW, .smp b, .eLo] ++ match m with
    | .eightBit => []
    | .fourBit => [.eHi, .dly tPW, .eLo]

/-- The bus cycles of one turn of the poll's loop that samples `b` (R112). -/
def iterationCycles (m : BusMode) (dout : Byte) (b : Bit) : List BusCycle :=
  rd b dout :: match m with
    | .eightBit => []
    | .fourBit => [rdX dout]

/-- A poll that reads busy `busy` times and then clear (R119): its pin events. -/
def pollEvents (m : BusMode) (tPW busy : Nat) : List PinEvent :=
  [.cfg7In, .ctl 0 1] ++ (List.replicate busy (iterationEvents m tPW 1)).flatten ++ iterationEvents m tPW 0
    ++ [.cfg7Out]

/-- The same poll's bus cycles. -/
def pollCycles (m : BusMode) (dout : Byte) (busy : Nat) : List BusCycle :=
  (List.replicate busy (iterationCycles m dout 1)).flatten ++ iterationCycles m dout 0

/-- The pin events of the transfer of byte `b`, control lines first (R113, R114, R115). -/
def driveEvents (m : BusMode) (tPW : Nat) (rs : Bit) (b : Byte) : List PinEvent :=
  .ctl rs 0 :: match m with
    | .eightBit => [.dirAll, .dat8 b, .eHi, .dly tPW, .eLo]
    | .fourBit => [.dat4 (highNibble b), .eHi, .dly tPW, .eLo, .dat4 (lowNibble b), .eHi, .dly tPW, .eLo]

/-- The bus cycles of the transfer of byte `b` (R113, R114). -/
def driveCycles (m : BusMode) (rs : Bit) (b dout : Byte) : List BusCycle :=
  match m with
  | .eightBit => [wr8 rs b]
  | .fourBit => [wr4 rs (highNibble b) dout, wr4 rs (lowNibble b) dout]

/-- What `DOUT` holds after byte `b` has been transferred (R115, "End state"). -/
def doutAfter (m : BusMode) (b dout : Byte) : Byte :=
  match m with
  | .eightBit => b
  | .fourBit => upperLines (lowNibble b) dout

/-- The bus cycles of `SEND`s one after the other, each its own poll and then its own transfer (20_memory.md R68). A command
here is its register-select level, its byte and how often its poll reads busy. -/
def sendCycles (m : BusMode) : Byte → List (Bit × Byte × Nat) → List BusCycle
  | _, [] => []
  | dout, (rs, byte, busy) :: cmds =>
    pollCycles m dout busy ++ driveCycles m rs byte dout ++ sendCycles m (doutAfter m byte dout) cmds

/-- Rows of R118 that one turn of the poll's loop runs through. -/
def iterationSteps : BusMode → Nat
  | .eightBit => 5
  | .fourBit => 8

/-- Rows of R118 from `P_CFG` to `P_REST`, with `busy` busy samples. -/
def pollSteps (m : BusMode) (busy : Nat) : Nat := 2 + iterationSteps m * (busy + 1) + 1

/-- Rows of R118 from `S_CTRL` to the return. -/
def driveSteps : BusMode → Nat
  | .eightBit => 6
  | .fourBit => 9

/-- Rows of R118 of a `SEND` after its acceptance. -/
def sendSteps (m : BusMode) (busy : Nat) : Nat := pollSteps m busy + driveSteps m

/-- Rows of R118 of a `RAWNIB` after its acceptance. -/
def rawSteps : BusMode → Nat
  | .eightBit => 6
  | .fourBit => 5

/-! ### The module (20_memory.md R72) -/

/-- The coming poll comes out: the module answers 1 to its first `busy` samples and 0 to the next. -/
def State.ModuleReadyAfter (s : State) (busy : Nat) : Prop :=
  (∀ j < busy, s.answer j = 1) ∧ s.answer busy = 0

/-- The named premise of R72: "in every poll, the oracle answers 0 after finitely many samples". From whichever sample a poll
starts, a 0 comes. -/
def Oracle.ModuleEventuallyReady (o : Oracle) : Prop := ∀ n, ∃ m ≥ n, o.answer m = 0

/-! ### The state a command leaves -/

/-- After `SEND rs, 0, byte` with `busy` busy samples (R115, "End state"): the latch, the lines and registers, the two traces;
nothing else has changed. `AUX` is whatever `aux` is. -/
def sent (busy : Nat) (rs : Bit) (byte : Byte) (aux : Bit) (s : State) : State :=
  { s with
    op := 0, crs := rs, crw := 0, cdata := byte
    rs := rs, rw := 0, e := 0, bf := 0, ddir := 0xFF, dpue := 0x00, aux := aux
    dout := doutAfter s.mode byte s.dout
    seq := .IDLE
    pins := s.pins ++ [.acc (sendWord rs 0 byte)] ++ pollEvents s.mode s.params.tPW busy
      ++ driveEvents s.mode s.params.tPW rs byte ++ [.ret]
    bus := s.bus ++ pollCycles s.mode s.dout busy ++ driveCycles s.mode rs byte s.dout }

/-- After `POLL` with `busy` busy samples (R117, R112 "Postcondition"). -/
def polled (busy : Nat) (aux : Bit) (s : State) : State :=
  { s with
    op := 2, crs := 0, crw := 0, cdata := 0
    rs := 0, rw := 1, e := 0, bf := 0, ddir := 0xFF, dpue := 0x00, aux := aux
    seq := .IDLE
    pins := s.pins ++ [.acc pollWord] ++ pollEvents s.mode s.params.tPW busy ++ [.ret]
    bus := s.bus ++ pollCycles s.mode s.dout busy }

/-- The pin events of `RAWNIB n` after its acceptance (R116). -/
def rawEvents (m : BusMode) (tPW : Nat) (n : Nibble) : List PinEvent :=
  .ctl 0 0 :: match m with
    | .eightBit => [.dirAll, .dat8 (n ++ 0#4), .eHi, .dly tPW, .eLo, .ret]
    | .fourBit => [.dat4 n, .eHi, .dly tPW, .eLo, .ret]

/-- What `DOUT` holds after `RAWNIB n` (R116). -/
def doutAfterRaw (m : BusMode) (n : Nibble) (dout : Byte) : Byte :=
  match m with
  | .eightBit => (n ++ 0#4 : BitVec 8)
  | .fourBit => upperLines n dout

/-- After `RAWNIB n` (R116): one write pulse, no sample. -/
def rawSent (n : Nibble) (s : State) : State :=
  { s with
    op := 1, crs := 0, crw := 0, cdata := n.setWidth 8
    rs := 0, rw := 0, e := 0, ddir := 0xFF
    dout := doutAfterRaw s.mode n s.dout
    seq := .IDLE
    pins := s.pins ++ [.acc (rawnibWord n)] ++ rawEvents s.mode s.params.tPW n
    bus := s.bus ++ [wr8 0 (doutAfterRaw s.mode n s.dout)] }

/-- `i` transfers `byte` with register-select level `rs`: whenever the block is ready, `exec i` accepts the command and, the
module reading busy any number of times and then clear, the machine's own steps carry it out to exactly the state `sent`
gives. This is the effect R115 gives `SEND rs, 0, byte`. -/
def Delivers (i : Instr) (rs : Bit) (byte : Byte) : Prop :=
  ∀ (s : State) (busy : Nat), s.Inv → s.ready = true → s.resetIn = [] → s.ModuleReadyAfter busy →
    exec i s = .next (accept (sendWord rs 0 byte) .P_CFG s) ∧
    ∃ aux, runSteps (sendSteps s.mode busy) (accept (sendWord rs 0 byte) .P_CFG s)
      = .next (sent busy rs byte aux s)

/-! ### The traces -/

/-- What the pin events determine (20_memory.md R73): the pin registers, `BF`, the bit sampled in the pulse that is open,
and the bus cycles so far. -/
structure PinRegs where
  rs : Bit
  rw : Bit
  e : Bit
  dout : Byte
  ddir : Byte
  dpue : Byte
  bf : Bit
  openSample : Option Bit
  bus : List BusCycle
  deriving DecidableEq, Repr

/-- The pin registers of 10_state.md R42. -/
def PinRegs.atReset : PinRegs where
  rs := 0
  rw := 0
  e := 0
  dout := 0x00
  ddir := 0xFF
  dpue := 0x00
  bf := 0
  openSample := none
  bus := []

/-- One pin event, as the alphabet of R73 explains it. -/
def PinRegs.see (r : PinRegs) : PinEvent → PinRegs
  | .acc _ => r
  | .cfg7In => { r with ddir := r.ddir &&& 0x7F, dpue := r.dpue ||| 0x80 }
  | .ctl rs rw => { r with rs := rs, rw := rw }
  | .eHi => { r with e := 1, openSample := none }
  | .dly _ => r
  | .smp b => { r with bf := b, openSample := some b }
  | .eLo =>
    { r with e := 0, openSample := none, bus := r.bus ++ [⟨r.rs, r.rw, r.ddir, r.dout, r.openSample⟩] }
  | .cfg7Out => { r with ddir := r.ddir ||| 0x80, dpue := r.dpue &&& 0x7F }
  | .dirAll => { r with ddir := 0xFF }
  | .dat8 v => { r with dout := v }
  | .dat4 n => { r with dout := upperLines n r.dout }
  | .ret => r

/-- The registers and bus cycles that a pin-event trace leads to from reset. -/
def replay (evs : List PinEvent) : PinRegs := evs.foldl PinRegs.see PinRegs.atReset

/-- The pin-event trace accounts for every pin register and for the whole bus-cycle trace. -/
def State.Accounted (s : State) : Prop :=
  replay s.pins =
    { rs := s.rs, rw := s.rw, e := s.e, dout := s.dout, ddir := s.ddir, dpue := s.dpue, bf := s.bf,
      openSample := if s.seq = .P_EL then some s.bf else none, bus := s.bus }

/-- A watcher of the pin-event trace: the operation of the command last accepted, the last sample since then, the level of
`RW`, and whether every write pulse of a `SEND` so far came after a clear sample of the same command. -/
structure Watch where
  op : BitVec 2
  last : Option Bit
  rw : Bit
  guarded : Bool
  deriving DecidableEq, Repr

/-- The watcher before any event. -/
def Watch.atReset : Watch := { op := 0, last := none, rw := 0, guarded := true }

def Watch.see (t : Watch) : PinEvent → Watch
  | .acc w => { t with op := opField w, last := none }
  | .ctl _ rw => { t with rw := rw }
  | .smp b => { t with last := some b }
  | .eLo => { t with guarded := t.guarded && (t.op != 0 || t.rw == 1 || t.last == some 0) }
  | .cfg7In | .eHi | .dly _ | .cfg7Out | .dirAll | .dat8 _ | .dat4 _ | .ret => t

def watch (evs : List PinEvent) : Watch := evs.foldl Watch.see Watch.atReset

/-- 20_memory.md R68 item 1 over the whole trace: "Every write pulse of a `SEND` comes after a read pulse of the same command
whose sample was 0". -/
def State.BusyGuarded (s : State) : Prop := (watch s.pins).guarded = true

/-- What the watcher has seen of the command in progress, by the value of `SEQ`. -/
structure State.Watched (s : State) : Prop where
  guarded : s.BusyGuarded
  line : (watch s.pins).rw = s.rw
  command : s.seq ≠ .IDLE → (watch s.pins).op = s.op
  /-- From `P_EL` to the return of a `SEND`, the last sample is what `BF` holds. -/
  lastSample : s.seq ∈ [.P_EL, .P_DEH, .P_DPW, .P_DEL, .P_TEST, .P_REST] ∨ s.seq.group = .send →
    (watch s.pins).last = some s.bf

/-! ### Environments -/

/-- Any machine right after reset: any parameters, and anything lined up by the host and the reset input, any module. -/
def State.FreshlyReset (s : State) : Prop :=
  s = { State.resetOf s.params with
        port := s.port, life := s.life, oracle := s.oracle, resetIn := s.resetIn, draws := s.draws,
        op := s.op, crs := s.crs, crw := s.crw, cdata := s.cdata }

/-- `s` and `t` differ at most in what the host has lined up at the port. -/
def State.samePort (s t : State) : Prop := { s with port := t.port } = t

/-- `s` and `t` differ at most in the module. -/
def State.sameButModule (s t : State) : Prop := { s with oracle := t.oracle } = t

end Sys2Proof.Machine
end

