-- ==== Sys2Proof/Certificates/Slice0/Obligations.lean ====
section
/-! DEFINITION. The statements about the model, for the provers. Each docstring names the rule it formalises; "D<n>" and
"C<n>" are the spec's own decisions and conflict resolutions (spec/92_eei_decisions.md, spec/90_conflicts.md). No statement
says what `AUX` carries (spec/93_implementation_defined.md U6). -/

open Sys2Proof Sys2Proof.Machine

/-! ### Encoding -/

/-- Words written out from the encodings of 30_encoding.md R82, R86, R89 decode to what they stand for. -/
def Obligations.SpecWordsDecodeAsWritten : Prop :=
  decode 0x001 = .clear ∧ decode 0x002 = .home ∧ decode 0x006 = .entry .right .off ∧
  decode 0x00C = .dispctl .on .off .off ∧ decode 0x018 = .shift .display .left ∧
  decode 0x038 = .funcset .eightBit .two ∧ decode 0x241 = .wrdata 0x41 ∧ decode 0x003 = .irwrite 0x03 ∧
  decode 0x403 = .rawnib 0x3 ∧ decode 0x800 = .poll ∧ decode 0x341 = .reservedSendRead 1 0x41 ∧
  decode 0x413 = .reservedRawnibBits 1 0x3 ∧ decode 0x801 = .reservedPollBits 1 ∧ decode 0xFFF = .reservedOp 0x3FF

/-- Every well-formed instruction is what its own word decodes to. The generic row `SEND` is set apart, since a more specific
row wins for each of its words (30_encoding.md R88); `SendRunsAsItsNamedForm` says what becomes of it. -/
def Obligations.DecodeAfterEncodeIsIdentity : Prop :=
  ∀ i : Instr, i.wf = true → i.mnemonic ≠ .SEND → decode (encode i) = i

/-- Each of the 4096 words has exactly one reading: encoding what it decodes to gives it back. -/
def Obligations.EncodeAfterDecodeIsIdentity : Prop :=
  ∀ w : CmdWord, encode (decode w) = w ∧ (decode w).wf = true ∧ (decode w).mnemonic ≠ .SEND

/-- 30_encoding.md R88: "among the rows whose mask and match fit a word, the one with the most bits in its mask gives the
mnemonic". -/
def Obligations.DecodeGivesMostSpecificRow : Prop :=
  ∀ w : CmdWord, ∃ r ∈ opcodeRows, r.fits w = true ∧ (decode w).mnemonic = r.mnemonic ∧
    ∀ r' ∈ opcodeRows, r'.fits w = true → r' = r ∨ r'.specificity < r.specificity

/-- 30_encoding.md R89 (D32): exactly the listed bytes, with `rs = 0`, match no row of R86. -/
def Obligations.UnnamedBytesDecodeToIrwrite : Prop :=
  ∀ b : Byte, decode (sendWord 0 0 b) = .irwrite b ↔
    (b = 0x00 ∨ b = 0x03 ∨ (0x10 ≤ b ∧ b ≤ 0x1F ∧ b &&& 0x03 ≠ 0) ∨ (0x20 ≤ b ∧ b ≤ 0x3F ∧ b &&& 0x07 ≠ 0) ∨ 0x40 ≤ b)

/-- 30_encoding.md R88: "the row `SEND` gives the transport semantics of all of them". -/
def Obligations.SendRunsAsItsNamedForm : Prop :=
  ∀ (rs : Bit) (byte : Byte) (s : State),
    exec (.send rs 0 byte) s = exec (decode (encode (.send rs 0 byte))) s

/-! ### What each instruction does

`Delivers i rs byte`: a ready block accepts `i`, and the machine's own steps carry it out to exactly the state the rules
give. Its cut into micro-steps, the instant of the sample, the dummy pulse of every iteration and the restoring of the line
are the spec's own decisions (D1, D7, D8, D9, D12, D23), so a statement made of it is derived, not stated. -/

/-- 40_bus_transport.md R115. `SEND rs, 0, byte` completes for every byte and either `rs`; with `rw = 1` it is refused
(D13). -/
def Obligations.SendDelivers : Prop :=
  ∀ (rs : Bit) (byte : Byte), encode (.send rs 0 byte) = sendWord rs 0 byte ∧ Delivers (.send rs 0 byte) rs byte ∧
    ∀ s : State, exec (.send rs 1 byte) s = .refused .sendRead

/-- 30_encoding.md R89 (D32): the byte is carried unchanged. -/
def Obligations.IrwriteDelivers : Prop :=
  ∀ byte : Byte, encode (.irwrite byte) = sendWord 0 0 byte ∧ Delivers (.irwrite byte) 0 byte

/-- 41_instruction_encoder.md R140, R141, R144, R146: each of these instructions has the command word of its rule and is,
in every state, the `SEND` of its rule. -/
def Obligations.ClearHomeShiftWrdataAreTheirSends : Prop :=
  (encode .clear = 0x001 ∧ ∀ s, exec .clear s = exec (.send 0 0 0b0000_0001) s) ∧
  (encode .home = 0x002 ∧ (∀ s, exec .home s = exec (.send 0 0 0b0000_0010) s) ∧ decode 0x003 ≠ .home) ∧
  (∀ (o : ShiftObject) (d : ShiftDirection) (b : Byte),
    b = 0x10#8 ||| o.toBit.setWidth 8 <<< 3 ||| d.toBit.setWidth 8 <<< 2 →
    encode (.shift o d) = b.setWidth 12 ∧ ∀ s, exec (.shift o d) s = exec (.send 0 0 b) s) ∧
  (shiftByte .cursor .left = 0x10 ∧ shiftByte .cursor .right = 0x14 ∧
    shiftByte .display .left = 0x18 ∧ shiftByte .display .right = 0x1C) ∧
  (∀ byte : Byte, encode (.wrdata byte) = 0x200#12 ||| byte.setWidth 12 ∧
    ∀ s, exec (.wrdata byte) s = exec (.send 1 0 byte) s)

/-- 41_instruction_encoder.md R140 over R115. -/
def Obligations.ClearDelivers : Prop := Delivers .clear 0 0x01

/-- 41_instruction_encoder.md R141 over R115. -/
def Obligations.HomeDelivers : Prop := Delivers .home 0 0x02

/-- 41_instruction_encoder.md R142 over R115; which of `Left` and `Right` is 0 is D17. -/
def Obligations.EntryDelivers : Prop :=
  ∀ (d : EntryDirection) (sh : AutoShift) (b : Byte),
    b = 0b0000_0100#8 ||| d.toBit.setWidth 8 <<< 1 ||| sh.toBit.setWidth 8 →
    encode (.entry d sh) = b.setWidth 12 ∧ Delivers (.entry d sh) 0 b

/-- 41_instruction_encoder.md R143 over R115, with "All eight values"; that `Off` is 0 and `On` is 1 is D17. -/
def Obligations.DispctlDelivers : Prop :=
  (∀ (d : DisplayState) (c : CursorState) (k : BlinkState) (b : Byte),
    b = 0b0000_1000#8 ||| d.toBit.setWidth 8 <<< 2 ||| c.toBit.setWidth 8 <<< 1 ||| k.toBit.setWidth 8 →
    encode (.dispctl d c k) = b.setWidth 12 ∧ Delivers (.dispctl d c k) 0 b) ∧
  dispctlByte .off .off .off = 0x08 ∧ dispctlByte .off .off .on = 0x09 ∧ dispctlByte .off .on .off = 0x0A ∧
  dispctlByte .off .on .on = 0x0B ∧ dispctlByte .on .off .off = 0x0C ∧ dispctlByte .on .off .on = 0x0D ∧
  dispctlByte .on .on .off = 0x0E ∧ dispctlByte .on .on .on = 0x0F

/-- 41_instruction_encoder.md R144 over R115. -/
def Obligations.ShiftDelivers : Prop :=
  ∀ (o : ShiftObject) (d : ShiftDirection) (b : Byte),
    b = 0b0001_0000#8 ||| o.toBit.setWidth 8 <<< 3 ||| d.toBit.setWidth 8 <<< 2 → Delivers (.shift o d) 0 b

/-- 41_instruction_encoder.md R145 (C1, D17) over R115. The host's line takes `W` from `MODE`; a `W` that disagrees with it
is transported like any other. -/
def Obligations.FuncsetDelivers : Prop :=
  (∀ (w : BusMode) (l : LineCount) (b : Byte),
    b = 0b0010_0000#8 ||| w.toBit.setWidth 8 <<< 4 ||| l.toBit.setWidth 8 <<< 3 →
    encode (.funcset w l) = b.setWidth 12 ∧ Delivers (.funcset w l) 0 b) ∧
  (∀ (p : Params) (l : LineCount), funcsetLine p l = .command (sendWord 0 0 (match p.mode with
    | .fourBit => 0b0010_0000#8 ||| l.toBit.setWidth 8 <<< 3
    | .eightBit => 0b0011_0000#8 ||| l.toBit.setWidth 8 <<< 3)))

/-- 41_instruction_encoder.md R146 over R115. -/
def Obligations.WrdataDelivers : Prop := ∀ byte : Byte, Delivers (.wrdata byte) 1 byte

/-- 40_bus_transport.md R116 (D15): one write pulse with `RS = RW = 0`, no poll, no sample, whatever the module would
answer. `rawSent` is the whole state it leaves. -/
def Obligations.RawnibTransfersOneNibble : Prop :=
  ∀ (n : Nibble) (s : State), s.Inv → s.ready = true → s.resetIn = [] →
    exec (.rawnib n) s = .next (accept (rawnibWord n) .R_CTRL s) ∧
    runSteps (rawSteps s.mode) (accept (rawnibWord n) .R_CTRL s) = .next (rawSent n s)

/-- 40_bus_transport.md R117, R112 (D7, D9): the poll samples until the module answers 0, restores the line and returns.
`polled` is the whole state it leaves. -/
def Obligations.PollReturnsWhenModuleClears : Prop :=
  ∀ (s : State) (busy : Nat), s.Inv → s.ready = true → s.resetIn = [] → s.ModuleReadyAfter busy →
    exec .poll s = .next (accept 0x800 .P_CFG s) ∧
    ∃ aux, runSteps (pollSteps s.mode busy) (accept 0x800 .P_CFG s) = .next (polled busy aux s)

/-- 30_encoding.md R87, 60_exceptions.md R191 (D13, D14): the words without a meaning are refused by name, in every state of
a machine that looks at its port. -/
def Obligations.ReservedWordsAreRefused : Prop :=
  (∀ (rs : Bit) (byte : Byte) (s : State), exec (.reservedSendRead rs byte) s = .refused .sendRead) ∧
  (∀ (r : BitVec 6) (n : Nibble) (s : State), exec (.reservedRawnibBits r n) s = .refused .reservedBits) ∧
  (∀ (r : BitVec 10) (s : State), exec (.reservedPollBits r) s = .refused .reservedBits) ∧
  (∀ (p : BitVec 10) (s : State), exec (.reservedOp p) s = .refused .reservedOp) ∧
  (∀ (s : State) (w : CmdWord) (rest : List HostAction), s.ready = true → s.resetAsserted = false →
    s.port = .command w :: rest →
    (opField w = 3 → step s = .refused .reservedOp) ∧
    (opField w = 0 → rwField w = 1 → step s = .refused .sendRead) ∧
    (opField w = 1 → rawReservedField w ≠ 0 → step s = .refused .reservedBits) ∧
    (opField w = 2 → payloadField w ≠ 0 → step s = .refused .reservedBits))

/-! ### The step -/

/-- A step of a ready block runs the instruction that the requested word decodes to (40_bus_transport.md R120), on the state
with the request taken and the reset input's level used. -/
def Obligations.StepRunsTheDecodedCommand : Prop :=
  (∀ (s : State) (w : CmdWord) (rest : List HostAction), s.ready = true → s.resetAsserted = false →
    s.port = .command w :: rest → step s = exec (decode w) { s with port := rest, resetIn := s.resetIn.tail }) ∧
  (∀ (s : State) (nbits n : Nat), n < 2 ^ nbits → n < 4096 →
    step (s.withFetchWord nbits n) = exec (decode (BitVec.ofNat 12 n)) { s with seq := .IDLE, resetIn := [] })

/-- 40_bus_transport.md R120 (D1): "While `READY = 0` a request is not accepted and has no effect: the host waits". Whatever
instruction with a meaning is at the port, the step is the next row of the command in progress, and neither the port nor
the command latch changes. -/
def Obligations.BusyBlockHoldsRequestsOff : Prop :=
  ∀ s t : State, s.ready = false → s.resetAsserted = false → step s = .next t →
    (∀ i : Instr, i.wf = true → (∀ s' r, exec i s' ≠ .refused r) → exec i s.resetSampled = .next t) ∧
    t.port = s.port ∧ t.op = s.op ∧ t.crs = s.crs ∧ t.crw = s.crw ∧ t.cdata = s.cdata

/-- 40_bus_transport.md R118 ("no request: `IDLE`"), 42_display_controller.md R171, R172: a ready block without a command
keeps all its state; `DELAY t` appends `Dly(t)`. -/
def Obligations.IdleBlockKeepsItsState : Prop :=
  ∀ s : State, s.ready = true → s.resetAsserted = false →
    (s.port = [] → step s = .next { s with resetIn := s.resetIn.tail }) ∧
    (∀ t rest, s.port = .delay t :: rest →
      step s = .next { s with resetIn := s.resetIn.tail, port := rest, pins := s.pins ++ [.dly t] }) ∧
    (∀ l rest, s.port = .enter l :: rest →
      step s = .next { s with resetIn := s.resetIn.tail, port := rest, life := l })

/-- 70_reset_and_hazards.md R210, 10_state.md R42 (D21): reset wins over any micro-step and any request. The command latch,
"unspecified", and `AUX` (U6) are not spoken of. What is kept of the environment is the model's choice
(notes/assumptions/5.md). -/
def Obligations.ResetOverridesEveryStep : Prop :=
  ∀ s : State, s.resetAsserted = true → ∃ t, step s = .next t ∧
    t.seq = .IDLE ∧ t.e = 0 ∧ t.rs = 0 ∧ t.rw = 0 ∧ t.bf = 0 ∧ t.dout = 0x00 ∧ t.ddir = 0xFF ∧ t.dpue = 0x00 ∧
    t.ready = true ∧ t.pins = [] ∧ t.bus = [] ∧ t.sampleCount = 0 ∧ t.params = s.params ∧ t.oracle = s.oracle ∧
    t.port = s.port ∧ t.life = s.life ∧ t.resetIn = s.resetIn.tail

/-- 10_state.md R42 (D21), for every parameter: the state after power-up. The command latch and `AUX` (U6) are not spoken of. -/
def Obligations.ResetValuesAreTheSpecs : Prop :=
  ∀ (p : Params) (s : State), s = State.resetOf p →
    s.seq = .IDLE ∧ s.dout = 0x00 ∧ s.ddir = 0xFF ∧ s.dpue = 0x00 ∧ s.rs = 0 ∧ s.rw = 0 ∧ s.e = 0 ∧ s.bf = 0 ∧
    s.ready = true ∧ s.pins = [] ∧ s.bus = [] ∧ s.params = p ∧ s.life = .uninitialized

/-! ### The transition table against the pseudocode -/

/-- 40_bus_transport.md R115 against R118: whenever the pseudocode of `SEND`, its poll cut off after any number of
iterations, comes out with `u`, the table's steps from `P_CFG` come to `u` with `Ret`. -/
def Obligations.TableCarriesOutSendPseudocode : Prop :=
  ∀ (s u : State) (limit : Nat), s.seq = .P_CFG → s.op = 0 → s.resetIn = [] →
    sendBody limit s.crs s.crw s.cdata s = some u → ∃ k, runSteps k s = .next (ret u)

/-- 40_bus_transport.md R112, R117 against R118. -/
def Obligations.TableCarriesOutPollPseudocode : Prop :=
  ∀ (s u : State) (limit : Nat), s.seq = .P_CFG → s.op = 2 → s.resetIn = [] →
    waitWhileBusy limit s = some u → ∃ k, runSteps k s = .next (ret u)

/-- 40_bus_transport.md R116 against R118. -/
def Obligations.TableCarriesOutRawnibPseudocode : Prop :=
  ∀ s : State, s.seq = .R_CTRL → s.resetIn = [] →
    runSteps (rawSteps s.mode) s = .next (ret (rawnibBody (lowNibble s.cdata) s))

/-- 40_bus_transport.md R113 over R118: all eight lines become outputs, the full byte is written, one pulse; "The direction
write happens on every call". Which rows it takes and that the command returns after the last are R118's, by D7. -/
def Obligations.EightBitStrategyWritesByteInOnePulse : Prop :=
  ∀ s : State, s.seq = .S_DIR → s.mode = .eightBit → s.resetIn = [] →
    runSteps 5 s = .next { s with
      ddir := 0xFF
      dout := s.cdata
      e := 0
      seq := .IDLE
      pins := s.pins ++ [.dirAll, .dat8 s.cdata, .eHi, .dly s.params.tPW, .eLo, .ret]
      bus := s.bus ++ [{ rs := s.rs, rw := s.rw, ddir := 0xFF, dout := s.cdata, smp := none }] }

/-- 40_bus_transport.md R114, R121, 20_memory.md R62 (D4, D23): two write pulses, `(B & 0xF0) >> 4` then `B & 0x0F` on
`D[7:4]`, `DOUT[3:0]` and `DDIR` untouched. -/
def Obligations.FourBitStrategyWritesHighNibbleFirst : Prop :=
  ∀ s : State, s.seq = .S_D0 → s.mode = .fourBit → s.resetIn = [] →
    runSteps 8 s = .next { s with
      dout := (s.cdata &&& 0x0F) <<< 4 ||| s.dout &&& 0x0F
      e := 0
      seq := .IDLE
      pins := s.pins ++ [.dat4 (((s.cdata &&& 0xF0) >>> 4).setWidth 4), .eHi, .dly s.params.tPW, .eLo,
        .dat4 ((s.cdata &&& 0x0F).setWidth 4), .eHi, .dly s.params.tPW, .eLo, .ret]
      bus := s.bus ++ [
        { rs := s.rs, rw := s.rw, ddir := s.ddir, dout := s.cdata &&& 0xF0 ||| s.dout &&& 0x0F, smp := none },
        { rs := s.rs, rw := s.rw, ddir := s.ddir, dout := (s.cdata &&& 0x0F) <<< 4 ||| s.dout &&& 0x0F, smp := none }] }

/-! ### Frames of one step -/

/-- In a poll (40_bus_transport.md R112, R117): the data output register, the command latch, the parameters, the module
and all the host's side keep their values; `DDIR` and `DPUE` change in bit 7 only. `exec i` is the step whatever `i` is held off. -/
def Obligations.PollStepFrame : Prop :=
  ∀ (i : Instr) (s t : State), s.seq.group = .poll → exec i s = .next t →
    t.dout = s.dout ∧ t.ddir &&& 0x7F = s.ddir &&& 0x7F ∧ t.dpue &&& 0x7F = s.dpue &&& 0x7F ∧
    t.op = s.op ∧ t.crs = s.crs ∧ t.crw = s.crw ∧ t.cdata = s.cdata ∧ t.params = s.params ∧ t.port = s.port ∧
    t.life = s.life ∧ t.oracle = s.oracle ∧ t.draws = s.draws ∧ t.resetIn = s.resetIn ∧
    (t.bf = s.bf ∨ s.seq = .P_SMP) ∧
    ((t.rs = s.rs ∧ t.rw = s.rw) ∨ s.seq = .P_CTRL) ∧
    (t.e = s.e ∨ s.seq = .P_EH ∨ s.seq = .P_EL ∨ s.seq = .P_DEH ∨ s.seq = .P_DEL) ∧
    (t.bus = s.bus ∨ s.seq = .P_EL ∨ s.seq = .P_DEL)

/-- In the transfer part of a `SEND` and in a `RAWNIB` (40_bus_transport.md R113 to R116): the flag, the pull-ups, the
command latch, the parameters, the module and all the host's side keep their values; `DDIR` is kept or set to
`0xFF`; `RS` and `RW` change in the `Ctl` step only. -/
def Obligations.TransferStepFrame : Prop :=
  ∀ (i : Instr) (s t : State), s.seq.group = .send ∨ s.seq.group = .raw → exec i s = .next t →
    t.bf = s.bf ∧ t.dpue = s.dpue ∧ t.op = s.op ∧ t.crs = s.crs ∧ t.crw = s.crw ∧ t.cdata = s.cdata ∧
    t.params = s.params ∧ t.port = s.port ∧ t.life = s.life ∧ t.oracle = s.oracle ∧ t.draws = s.draws ∧
    t.resetIn = s.resetIn ∧
    (t.ddir = s.ddir ∨ (t.ddir = 0xFF ∧ (s.seq = .S_DIR ∨ s.seq = .R_DIR))) ∧
    ((t.rs = s.rs ∧ t.rw = s.rw) ∨ s.seq = .S_CTRL ∨ s.seq = .R_CTRL) ∧
    (t.dout = s.dout ∨ s.seq = .S_D0 ∨ s.seq = .S_D1 ∨ s.seq = .R_D) ∧
    (t.e = s.e ∨ s.seq ∈ [.S_EH0, .S_EL0, .S_EH1, .S_EL1, .R_EH, .R_EL]) ∧
    (t.bus = s.bus ∨ s.seq ∈ [.S_EL0, .S_EL1, .R_EL])

/-- Acceptance (40_bus_transport.md R120, 10_state.md R31) of any instruction: the command latch takes the four fields of the
instruction's word, `SEQ` the first state of the command, the trace `Acc(w)`, and nothing else changes. -/
def Obligations.AcceptanceWritesOnlyTheLatch : Prop :=
  ∀ (i : Instr) (s t : State), i.wf = true → s.ready = true → exec i s = .next t →
    ∃ first, (first = .P_CFG ∨ first = .R_CTRL) ∧ (first = .R_CTRL ↔ opField (encode i) = 1) ∧
      t = { s with
        op := opField (encode i)
        crs := rsField (encode i)
        crw := rwField (encode i)
        cdata := byteField (encode i)
        seq := first
        pins := s.pins ++ [.acc (encode i)] }

/-- 20_memory.md R62, 10_state.md R32 (D4): `FourBit` never writes `DOUT[3:0]`, in any step but a reset. -/
def Obligations.FourBitNeverWritesLowLines : Prop :=
  ∀ s t : State, s.mode = .fourBit → s.resetAsserted = false → step s = .next t → t.dout &&& 0x0F = s.dout &&& 0x0F

/-- 10_state.md R40 (D5): no step, reset included, changes the instance's configuration. -/
def Obligations.ConfigurationNeverChanges : Prop :=
  ∀ s t : State, step s = .next t → t.params = s.params

/-- 20_memory.md R65, R66, R73: without a reset, a step only appends to the two traces: at most two pin events, at most one
bus cycle, and a bus cycle exactly where an `ELo` is among the events. -/
def Obligations.StepsAppendToTraces : Prop :=
  ∀ s t : State, s.resetAsserted = false → step s = .next t →
    ∃ evs cs, t.pins = s.pins ++ evs ∧ t.bus = s.bus ++ cs ∧ evs.length ≤ 2 ∧ cs.length ≤ 1 ∧
      (cs ≠ [] ↔ PinEvent.eLo ∈ evs)

/-! ### Invariants -/

/-- The invariant holds of any machine right after reset: any parameters, any environment. -/
def Obligations.ResetMeetsInvariant : Prop :=
  (∀ s : State, s.FreshlyReset → s.Inv ∧ s.BusShaped ∧ s.Accounted ∧ s.Watched) ∧ State.reset.FreshlyReset

/-- 10_state.md R43 and what R33 to R38 say of a command in progress: every step, from every state that meets the invariant,
keeps it. -/
def Obligations.EveryStepKeepsInvariant : Prop :=
  ∀ s t : State, s.Inv → step s = .next t → t.Inv

/-- 20_memory.md R60, R73 item 2: every bus cycle has one of the four admitted shapes; a read of the data register never
occurs. -/
def Obligations.EveryStepKeepsBusCyclesShaped : Prop :=
  ∀ s t : State, s.Inv → s.BusShaped → step s = .next t → t.BusShaped

/-- 20_memory.md R73: the pin-event trace alone, read by the meanings R73 gives its events, accounts for every pin register,
for `BF` and for the whole bus-cycle trace. -/
def Obligations.EveryStepKeepsTraceAccounting : Prop :=
  ∀ s t : State, s.Accounted → step s = .next t → t.Accounted

/-- 20_memory.md R68 item 1, 70_reset_and_hazards.md R213, as an invariant of the trace: every write pulse of a `SEND` comes
after a sample of the same command that was 0, the last one before it. -/
def Obligations.EveryStepKeepsBusyGuard : Prop :=
  ∀ s t : State, s.Inv → s.Watched → step s = .next t → t.Watched

/-- The same over runs: from reset with any parameters, any host, any module and any resets to come, no `SEND` ever writes
without a clear busy flag observed first. -/
def Obligations.NoSendWritesBeforeClearBusyFlag : Prop :=
  ∀ (s t : State) (k : Nat), s.FreshlyReset → runSteps k s = .next t → t.BusyGuarded

/-- 70_reset_and_hazards.md R213: "`SEND` cannot reach `S_CTRL` except through `P_REST`, which is reached only from `P_TEST`
with `BF = 0`"; the transfer states are entered nowhere else. -/
def Obligations.TransferReachedOnlyThroughClearPoll : Prop :=
  ∀ s t : State, step s = .next t →
    (t.seq = .S_CTRL → s.seq = .P_REST) ∧ (t.seq = .P_REST → s.seq = .P_TEST ∧ s.bf = 0) ∧
    (t.seq.group = .send → s.seq.group = .send ∨ t.seq = .S_CTRL)

/-- 40_bus_transport.md R110, 70_reset_and_hazards.md R214: while `E` is high, no step but a reset changes the lines. -/
def Obligations.LinesAreStillWhileEnableIsHigh : Prop :=
  ∀ s t : State, s.Inv → s.e = 1 → s.resetAsserted = false → step s = .next t →
    t.rs = s.rs ∧ t.rw = s.rw ∧ t.dout = s.dout ∧ t.ddir = s.ddir ∧ t.dpue = s.dpue

/-- 20_memory.md R75: during a poll `D[7]` is an input, and "The other data lines stay as they were, outputs driving the last
`DOUT` value, for the whole poll": `DDIR` is `0x7F`. -/
def Obligations.OtherLinesStayOutputsDuringPoll : Prop :=
  ∀ s t : State, s.Inv → s.seq.lineIn = true →
    s.ddir = 0x7F ∧ s.driven 7 = none ∧ (∀ i : Fin 8, i ≠ 7 → s.driven i = some (byteBit s.dout i)) ∧
    (s.resetAsserted = false → step s = .next t → t.dout = s.dout)

/-- 70_reset_and_hazards.md R216: whatever step takes the block out of a poll, reset included, leaves `D[7]` an output
without pull-up, and no write pulse occurs while it is an input. -/
def Obligations.SampledLineIsRestoredOnEveryExit : Prop :=
  ∀ s t : State, s.Inv → s.seq.lineIn = true → step s = .next t →
    (t.seq.lineIn = false → t.ddir = 0xFF ∧ t.dpue = 0x00) ∧
    (s.resetAsserted = false → ∃ cs, t.bus = s.bus ++ cs ∧ ∀ c ∈ cs, c.isWrite = false)

/-- 60_exceptions.md R190, R191: from a state that meets the invariant a step never faults, and it is refused only for a
reserved word at the port of a ready block. -/
def Obligations.StepNeverFaultsAndRefusesOnlyReservedWords : Prop :=
  ∀ s : State, s.Inv → (∃ t, step s = .next t) ∨
    (s.ready = true ∧ s.resetAsserted = false ∧ ∃ w rest r, s.port = .command w :: rest ∧ step s = .refused r ∧
      (opField w = 3 ∨ (opField w = 0 ∧ rwField w = 1) ∨ (opField w = 1 ∧ rawReservedField w ≠ 0) ∨
        (opField w = 2 ∧ payloadField w ≠ 0)))

/-! ### Polls that end and polls that do not -/

/-- 60_exceptions.md R192 (D22): a module that answers 1 for ever keeps a poll going for ever. After any number of steps the
machine runs on, `READY` is 0 and, from the second row on, `D[7]` is an input. -/
def Obligations.PollHangsWhileModuleStaysBusy : Prop :=
  ∀ s : State, s.Inv → s.seq = .P_CFG → s.resetIn = [] → (∀ j, s.answer j = 1) →
    ∀ k, ∃ t, runSteps k s = .next t ∧ t.ready = false ∧ t.seq.group = .poll ∧
      (1 ≤ k → t.ddir = 0x7F) ∧ t.seq ≠ .P_REST

/-- 20_memory.md R72 (D29): "A claim that a command returns needs the named premise `ModuleEventuallyReady`". With it, every
command in progress, at whatever row, returns, and the host's requests are where they were. -/
def Obligations.CommandsReturnWhenModuleIsEventuallyReady : Prop :=
  ∀ s : State, s.Inv → s.ready = false → s.resetIn = [] → s.oracle.ModuleEventuallyReady →
    ∃ k t, runSteps k s = .next t ∧ t.ready = true ∧ t.Inv ∧ t.port = s.port

/-- 40_bus_transport.md R119, 20_memory.md R63, of the states the machine's own steps reach from acceptance: a poll that reads
busy `busy` times takes `busy + 1` samples and as many pulses in `EightBit`, twice as many in `FourBit`, of which `busy + 1`
are dummy pulses; a `SEND` adds one write pulse or two, so that in `FourBit` the number of pulses of either is even. -/
def Obligations.PulseAndSampleCounts : Prop :=
  ∀ (s : State) (busy : Nat), s.Inv → s.ready = true → s.resetIn = [] → s.ModuleReadyAfter busy →
    (∃ t, runSteps (pollSteps s.mode busy) (accept pollWord .P_CFG s) = .next t ∧ t.ready = true ∧
      t.sampleCount = s.sampleCount + (busy + 1) ∧
      t.bus.length = s.bus.length + (match s.mode with | .eightBit => busy + 1 | .fourBit => 2 * (busy + 1)) ∧
      t.bus.countP BusCycle.isDummy =
        s.bus.countP BusCycle.isDummy + (match s.mode with | .eightBit => 0 | .fourBit => busy + 1)) ∧
    (∀ (rs : Bit) (byte : Byte),
      ∃ t, runSteps (sendSteps s.mode busy) (accept (sendWord rs 0 byte) .P_CFG s) = .next t ∧ t.ready = true ∧
        t.sampleCount = s.sampleCount + (busy + 1) ∧
        t.bus.length = s.bus.length + (match s.mode with | .eightBit => busy + 1 + 1 | .fourBit => 2 * (busy + 1) + 2) ∧
        t.bus.countP BusCycle.isDummy =
          s.bus.countP BusCycle.isDummy + (match s.mode with | .eightBit => 0 | .fourBit => busy + 1))

/-- 20_memory.md R68: `SEND`s lined up at the port are carried out one after the other in the order of issue, each after its
own poll of any length. The whole bus-cycle trace is given, reads and writes: for each command its own poll, read pulses and
dummy pulses alone, then its own transfer, the nibbles of a byte adjacent and high first. -/
def Obligations.SendsAreCarriedOutInOrder : Prop :=
  ∀ (cmds : List (Bit × Byte × Nat)) (s : State) (rest : List HostAction) (bits : List Bit),
    s.Inv → s.ready = true → s.resetIn = [] →
    s.port = cmds.map (fun c => HostAction.command (sendWord c.1 0 c.2.1)) ++ rest →
    bits = cmds.flatMap (fun c => List.replicate c.2.2 1 ++ [0]) →
    (∀ j b, bits[j]? = some b → s.answer j = b) →
    ∃ k t, runSteps k s = .next t ∧ t.ready = true ∧ t.Inv ∧ t.port = rest ∧
      t.sampleCount = s.sampleCount + bits.length ∧ t.bus = s.bus ++ sendCycles s.mode s.dout cmds

/-! ### Who can influence what -/

/-- 20_memory.md R71, 10_state.md R31 (D34): what stands at the port does not reach the command in progress. -/
def Obligations.PortDoesNotReachCommandInProgress : Prop :=
  ∀ s t s' : State, s.samePort t → s.ready = false → step s = .next s' →
    step t = .next { s' with port := t.port }

/-- 20_memory.md R72, 10_state.md R39: the module enters at the sample step only. Two machines that differ in the module
alone take the same step everywhere else, and a reset at any step. -/
def Obligations.ModuleEntersOnlyAtSampleStep : Prop :=
  ∀ s t s' : State, s.sameButModule t → s.seq ≠ .P_SMP ∨ s.resetAsserted = true → step s = .next s' →
    step t = .next { s' with oracle := t.oracle }

/-- 20_memory.md R72 (D29): the module is any function from sample number to bit, the sample number counting the `P_SMP` steps
since reset from 1. Whatever the function, a sample step writes its value at that number to `BF` and to the trace; the step
of the machine is that of its oracle's function; a reset keeps the oracle and starts the numbers again; and every function,
to any number of samples, is the oracle of some state. -/
def Obligations.ModuleIsAnyFunctionOfTheSampleNumber : Prop :=
  (∀ (f : Nat → Bit) (s : State), s.seq = .P_SMP → s.resetAsserted = false →
    stepWith f s = .next { s with
      bf := f (s.pins.countP PinEvent.isSample + 1)
      seq := .P_EL
      pins := s.pins ++ [.smp (f (s.pins.countP PinEvent.isSample + 1))]
      resetIn := s.resetIn.tail }) ∧
  (∀ s t : State, step s = stepWith s.oracle.answer s ∧
    (s.resetAsserted = true → step s = .next t → t.oracle = s.oracle ∧ ∀ j, t.answer j = s.oracle.answer (j + 1))) ∧
  (∀ (f : Nat → Bit) (n : Nat), ∃ o : Oracle, ∀ (s : State) (k : Nat), s.sampleCount + k ≤ n →
    runSteps k { s with oracle := o } = runWith f k { s with oracle := o })

/-! ### The Display Controller (host side) -/

/-- 42_display_controller.md R162 to R168, R170 (D17, D18, D35): each of these operations sends one instruction, the byte of
the rule's worked example among them. -/
def Obligations.OneCommandOperationsSendTheirInstruction : Prop :=
  ∀ p : Params,
    (∀ d c k, instructionsOf (expand p (.configureDisplay d c k)) = [.dispctl d c k]) ∧
    (∀ d sh, instructionsOf (expand p (.setEntryMode d sh)) = [.entry d sh]) ∧
    (∀ l, instructionsOf (expand p (.setFunction l)) = [.funcset p.mode l]) ∧
    instructionsOf (expand p .clearDisplay) = [.clear] ∧
    instructionsOf (expand p .returnHome) = [.home] ∧
    (∀ o d, instructionsOf (expand p (.shift o d)) = [.shift o d]) ∧
    instructionsOf (expand p .turnDisplayOff) = [.dispctl .off .off .off] ∧
    (∀ b, instructionsOf (expand p (.appendByte b)) = [.wrdata b]) ∧
    (expand p (.configureDisplay .on .on .off) = [.command 0x00E] ∧ expand p (.setEntryMode .right .on) = [.command 0x007] ∧
      (p.mode = .fourBit → expand p (.setFunction .two) = [.command 0x028]) ∧
      expand p (.shift .cursor .right) = [.command 0x014] ∧ expand p .turnDisplayOff = [.command 0x008] ∧
      expand p (.appendByte 0x21) = [.command 0x221])

/-- 42_display_controller.md R169 (D20): `write_text` sends clear and home, then the characters; from index 16 on each one
after a scroll delay, shift-on once before the first of those, shift-off at the end. -/
def Obligations.WriteTextScrollsFromTheSeventeenth : Prop :=
  ∀ (p : Params) (line more : List Byte),
    (line.length ≤ scrollThreshold → expand p (.writeText line) =
      [.command 0x001, .command 0x002] ++ line.map (fun b => .command (sendWord 1 0 b)) ++ [.command 0x006]) ∧
    (line.length = scrollThreshold → more ≠ [] → expand p (.writeText (line ++ more)) =
      [.command 0x001, .command 0x002] ++ line.map (fun b => .command (sendWord 1 0 b)) ++ [.command 0x007] ++
      more.flatMap (fun b => [.delay p.tScroll, .command (sendWord 1 0 b)]) ++ [.command 0x006])

/-- 42_display_controller.md R161, 70_reset_and_hazards.md R212, R215 (C1, D16, D17, D19), between the life-cycle changes of
R171: the power-on sequence of each mode as one list, each delay after its own nibble. -/
def Obligations.PowerOnSequenceIsAsSpecified : Prop :=
  ∀ p : Params,
    (p.mode = .eightBit → expand p .initializeDisplay = [.enter .initializing,
      .delay p.tPowerOn, .command 0x403, .delay p.tInit1, .command 0x403, .delay p.tInit2, .command 0x403, .delay p.tInit3,
      .command (sendWord 0 0 (0b0011_0000#8 ||| p.initLines.toBit.setWidth 8 <<< 3)),
      .command (sendWord 0 0 (0b0000_1000#8 ||| p.initDisplay.toBit.setWidth 8 <<< 2 |||
        p.initCursor.toBit.setWidth 8 <<< 1 ||| p.initBlink.toBit.setWidth 8)),
      .command 0x006, .enter .ready]) ∧
    (p.mode = .fourBit → expand p .initializeDisplay = [.enter .initializing,
      .delay p.tPowerOn, .command 0x403, .delay p.tInit1, .command 0x403, .delay p.tInit2, .command 0x403, .delay p.tInit3,
      .command 0x402, .delay p.tInit4,
      .command (sendWord 0 0 (0b0010_0000#8 ||| p.initLines.toBit.setWidth 8 <<< 3)),
      .command (sendWord 0 0 (0b0000_1000#8 ||| p.initDisplay.toBit.setWidth 8 <<< 2 |||
        p.initCursor.toBit.setWidth 8 <<< 1 ||| p.initBlink.toBit.setWidth 8)),
      .command 0x006, .enter .ready])

/-- 42_display_controller.md R171 (D26: "A host model must add the restriction"): `initialize()` is issued in every
life-cycle state, every other operation in `Ready` only. An operation that is issued puts its expansion at the head of the
port; that a call out of its place sends nothing is the model's choice (notes/assumptions/12.md). -/
def Obligations.OperationsAreIssuedInReadyOnly : Prop :=
  ∀ (s : State) (op : PublicOp) (rest : List HostAction), s.ready = true → s.resetAsserted = false →
    s.port = .call op :: rest →
    (op = .initializeDisplay ∨ s.life = .ready →
      step s = .next { s with resetIn := s.resetIn.tail, port := expand s.params op ++ rest }) ∧
    (op ≠ .initializeDisplay → s.life ≠ .ready → step s = .next { s with resetIn := s.resetIn.tail, port := rest })

/-- 42_display_controller.md R171: a call of `initialize()`, in any life-cycle state, runs to its end, with `Initializing`
from its start to its end and `Ready` after it. The module is eventually ready (20_memory.md R72). -/
def Obligations.InitializeMakesTheHostReady : Prop :=
  ∀ (s : State) (rest : List HostAction), s.Inv → s.ready = true → s.resetIn = [] → s.oracle.ModuleEventuallyReady →
    s.port = .call .initializeDisplay :: rest →
    ∃ k t, runSteps k s = .next t ∧ t.ready = true ∧ t.Inv ∧ t.port = rest ∧ t.life = .ready ∧
      ∀ j, 2 ≤ j → j < k → ∃ u, runSteps j s = .next u ∧ u.life = .initializing

/-- 42_display_controller.md R173: after `initialize()`, `clear_display()`, `return_home()`, the last `ENTRY` sent is
`(Right, Off)` and the last `DISPCTL` carries the post-init values, in both modes. -/
def Obligations.RoundTripLeavesPostInitValues : Prop :=
  ∀ (p : Params) (is : List Instr),
    is = instructionsOf (expand p .initializeDisplay ++ expand p .clearDisplay ++ expand p .returnHome) →
    (is.filter (fun i => i.mnemonic == .ENTRY)).getLast? = some (.entry .right .off) ∧
    (is.filter (fun i => i.mnemonic == .DISPCTL)).getLast? = some (.dispctl p.initDisplay p.initCursor p.initBlink)

/-- 42_display_controller.md R174: the macros send the seven forms of the Instruction Encoder and, in `initialize()` alone,
`RAWNIB`; never a bare `POLL`, never a byte outside the forms, never a reserved word. -/
def Obligations.MacrosSendOnlyEncoderForms : Prop :=
  ∀ (p : Params) (op : PublicOp), ∀ i ∈ instructionsOf (expand p op),
    i.mnemonic ∈ [.CLEAR, .HOME, .ENTRY, .DISPCTL, .SHIFT, .FUNCSET, .WRDATA] ∨
    (i.mnemonic = .RAWNIB ∧ op = .initializeDisplay)
end

