-- ==== Sys2Proof/Laws/State.lean ====
section
/-! SUPPORT. One lemma per field per operation of Machine/Ops.lean and Machine/Port.lean, so that no later proof unfolds a
record update. -/

namespace Sys2Proof.Machine

/-! ### `goto` -/

@[simp] theorem State.goto_op (s : State) (q : Seq) : (State.goto s q).op = s.op := rfl
@[simp] theorem State.goto_crs (s : State) (q : Seq) : (State.goto s q).crs = s.crs := rfl
@[simp] theorem State.goto_crw (s : State) (q : Seq) : (State.goto s q).crw = s.crw := rfl
@[simp] theorem State.goto_cdata (s : State) (q : Seq) : (State.goto s q).cdata = s.cdata := rfl
@[simp] theorem State.goto_dout (s : State) (q : Seq) : (State.goto s q).dout = s.dout := rfl
@[simp] theorem State.goto_ddir (s : State) (q : Seq) : (State.goto s q).ddir = s.ddir := rfl
@[simp] theorem State.goto_dpue (s : State) (q : Seq) : (State.goto s q).dpue = s.dpue := rfl
@[simp] theorem State.goto_rs (s : State) (q : Seq) : (State.goto s q).rs = s.rs := rfl
@[simp] theorem State.goto_rw (s : State) (q : Seq) : (State.goto s q).rw = s.rw := rfl
@[simp] theorem State.goto_e (s : State) (q : Seq) : (State.goto s q).e = s.e := rfl
@[simp] theorem State.goto_aux (s : State) (q : Seq) : (State.goto s q).aux = s.aux := rfl
@[simp] theorem State.goto_bf (s : State) (q : Seq) : (State.goto s q).bf = s.bf := rfl
@[simp] theorem State.goto_seq (s : State) (q : Seq) : (State.goto s q).seq = q := rfl
@[simp] theorem State.goto_pins (s : State) (q : Seq) : (State.goto s q).pins = s.pins := rfl
@[simp] theorem State.goto_bus (s : State) (q : Seq) : (State.goto s q).bus = s.bus := rfl
@[simp] theorem State.goto_params (s : State) (q : Seq) : (State.goto s q).params = s.params := rfl
@[simp] theorem State.goto_port (s : State) (q : Seq) : (State.goto s q).port = s.port := rfl
@[simp] theorem State.goto_life (s : State) (q : Seq) : (State.goto s q).life = s.life := rfl
@[simp] theorem State.goto_oracle (s : State) (q : Seq) : (State.goto s q).oracle = s.oracle := rfl
@[simp] theorem State.goto_resetIn (s : State) (q : Seq) : (State.goto s q).resetIn = s.resetIn := rfl
@[simp] theorem State.goto_draws (s : State) (q : Seq) : (State.goto s q).draws = s.draws := rfl
@[simp] theorem State.goto_mode (s : State) (q : Seq) : (State.goto s q).mode = s.mode := rfl

/-! ### `cfg7In` -/

@[simp] theorem cfg7In_op (s : State) : (cfg7In s).op = s.op := rfl
@[simp] theorem cfg7In_crs (s : State) : (cfg7In s).crs = s.crs := rfl
@[simp] theorem cfg7In_crw (s : State) : (cfg7In s).crw = s.crw := rfl
@[simp] theorem cfg7In_cdata (s : State) : (cfg7In s).cdata = s.cdata := rfl
@[simp] theorem cfg7In_dout (s : State) : (cfg7In s).dout = s.dout := rfl
@[simp] theorem cfg7In_ddir (s : State) : (cfg7In s).ddir = s.ddir &&& 0x7F := rfl
@[simp] theorem cfg7In_dpue (s : State) : (cfg7In s).dpue = s.dpue ||| 0x80 := rfl
@[simp] theorem cfg7In_rs (s : State) : (cfg7In s).rs = s.rs := rfl
@[simp] theorem cfg7In_rw (s : State) : (cfg7In s).rw = s.rw := rfl
@[simp] theorem cfg7In_e (s : State) : (cfg7In s).e = s.e := rfl
@[simp] theorem cfg7In_aux (s : State) : (cfg7In s).aux = 1 := rfl
@[simp] theorem cfg7In_bf (s : State) : (cfg7In s).bf = s.bf := rfl
@[simp] theorem cfg7In_seq (s : State) : (cfg7In s).seq = s.seq := rfl
@[simp] theorem cfg7In_pins (s : State) : (cfg7In s).pins = s.pins ++ [.cfg7In] := rfl
@[simp] theorem cfg7In_bus (s : State) : (cfg7In s).bus = s.bus := rfl
@[simp] theorem cfg7In_params (s : State) : (cfg7In s).params = s.params := rfl
@[simp] theorem cfg7In_port (s : State) : (cfg7In s).port = s.port := rfl
@[simp] theorem cfg7In_life (s : State) : (cfg7In s).life = s.life := rfl
@[simp] theorem cfg7In_oracle (s : State) : (cfg7In s).oracle = s.oracle := rfl
@[simp] theorem cfg7In_resetIn (s : State) : (cfg7In s).resetIn = s.resetIn := rfl
@[simp] theorem cfg7In_draws (s : State) : (cfg7In s).draws = s.draws := rfl
@[simp] theorem cfg7In_mode (s : State) : (cfg7In s).mode = s.mode := rfl

/-! ### `cfg7Out` -/

@[simp] theorem cfg7Out_op (s : State) : (cfg7Out s).op = s.op := rfl
@[simp] theorem cfg7Out_crs (s : State) : (cfg7Out s).crs = s.crs := rfl
@[simp] theorem cfg7Out_crw (s : State) : (cfg7Out s).crw = s.crw := rfl
@[simp] theorem cfg7Out_cdata (s : State) : (cfg7Out s).cdata = s.cdata := rfl
@[simp] theorem cfg7Out_dout (s : State) : (cfg7Out s).dout = s.dout := rfl
@[simp] theorem cfg7Out_ddir (s : State) : (cfg7Out s).ddir = s.ddir ||| 0x80 := rfl
@[simp] theorem cfg7Out_dpue (s : State) : (cfg7Out s).dpue = s.dpue &&& 0x7F := rfl
@[simp] theorem cfg7Out_rs (s : State) : (cfg7Out s).rs = s.rs := rfl
@[simp] theorem cfg7Out_rw (s : State) : (cfg7Out s).rw = s.rw := rfl
@[simp] theorem cfg7Out_e (s : State) : (cfg7Out s).e = s.e := rfl
@[simp] theorem cfg7Out_aux (s : State) : (cfg7Out s).aux = 0 := rfl
@[simp] theorem cfg7Out_bf (s : State) : (cfg7Out s).bf = s.bf := rfl
@[simp] theorem cfg7Out_seq (s : State) : (cfg7Out s).seq = s.seq := rfl
@[simp] theorem cfg7Out_pins (s : State) : (cfg7Out s).pins = s.pins ++ [.cfg7Out] := rfl
@[simp] theorem cfg7Out_bus (s : State) : (cfg7Out s).bus = s.bus := rfl
@[simp] theorem cfg7Out_params (s : State) : (cfg7Out s).params = s.params := rfl
@[simp] theorem cfg7Out_port (s : State) : (cfg7Out s).port = s.port := rfl
@[simp] theorem cfg7Out_life (s : State) : (cfg7Out s).life = s.life := rfl
@[simp] theorem cfg7Out_oracle (s : State) : (cfg7Out s).oracle = s.oracle := rfl
@[simp] theorem cfg7Out_resetIn (s : State) : (cfg7Out s).resetIn = s.resetIn := rfl
@[simp] theorem cfg7Out_draws (s : State) : (cfg7Out s).draws = s.draws := rfl
@[simp] theorem cfg7Out_mode (s : State) : (cfg7Out s).mode = s.mode := rfl

/-! ### `ctl` -/

@[simp] theorem ctl_op (a b : Bit) (s : State) : (ctl a b s).op = s.op := rfl
@[simp] theorem ctl_crs (a b : Bit) (s : State) : (ctl a b s).crs = s.crs := rfl
@[simp] theorem ctl_crw (a b : Bit) (s : State) : (ctl a b s).crw = s.crw := rfl
@[simp] theorem ctl_cdata (a b : Bit) (s : State) : (ctl a b s).cdata = s.cdata := rfl
@[simp] theorem ctl_dout (a b : Bit) (s : State) : (ctl a b s).dout = s.dout := rfl
@[simp] theorem ctl_ddir (a b : Bit) (s : State) : (ctl a b s).ddir = s.ddir := rfl
@[simp] theorem ctl_dpue (a b : Bit) (s : State) : (ctl a b s).dpue = s.dpue := rfl
@[simp] theorem ctl_rs (a b : Bit) (s : State) : (ctl a b s).rs = a := rfl
@[simp] theorem ctl_rw (a b : Bit) (s : State) : (ctl a b s).rw = b := rfl
@[simp] theorem ctl_e (a b : Bit) (s : State) : (ctl a b s).e = s.e := rfl
@[simp] theorem ctl_aux (a b : Bit) (s : State) : (ctl a b s).aux = s.aux := rfl
@[simp] theorem ctl_bf (a b : Bit) (s : State) : (ctl a b s).bf = s.bf := rfl
@[simp] theorem ctl_seq (a b : Bit) (s : State) : (ctl a b s).seq = s.seq := rfl
@[simp] theorem ctl_pins (a b : Bit) (s : State) : (ctl a b s).pins = s.pins ++ [.ctl a b] := rfl
@[simp] theorem ctl_bus (a b : Bit) (s : State) : (ctl a b s).bus = s.bus := rfl
@[simp] theorem ctl_params (a b : Bit) (s : State) : (ctl a b s).params = s.params := rfl
@[simp] theorem ctl_port (a b : Bit) (s : State) : (ctl a b s).port = s.port := rfl
@[simp] theorem ctl_life (a b : Bit) (s : State) : (ctl a b s).life = s.life := rfl
@[simp] theorem ctl_oracle (a b : Bit) (s : State) : (ctl a b s).oracle = s.oracle := rfl
@[simp] theorem ctl_resetIn (a b : Bit) (s : State) : (ctl a b s).resetIn = s.resetIn := rfl
@[simp] theorem ctl_draws (a b : Bit) (s : State) : (ctl a b s).draws = s.draws := rfl
@[simp] theorem ctl_mode (a b : Bit) (s : State) : (ctl a b s).mode = s.mode := rfl

/-! ### `eHi` -/

@[simp] theorem eHi_op (s : State) : (eHi s).op = s.op := rfl
@[simp] theorem eHi_crs (s : State) : (eHi s).crs = s.crs := rfl
@[simp] theorem eHi_crw (s : State) : (eHi s).crw = s.crw := rfl
@[simp] theorem eHi_cdata (s : State) : (eHi s).cdata = s.cdata := rfl
@[simp] theorem eHi_dout (s : State) : (eHi s).dout = s.dout := rfl
@[simp] theorem eHi_ddir (s : State) : (eHi s).ddir = s.ddir := rfl
@[simp] theorem eHi_dpue (s : State) : (eHi s).dpue = s.dpue := rfl
@[simp] theorem eHi_rs (s : State) : (eHi s).rs = s.rs := rfl
@[simp] theorem eHi_rw (s : State) : (eHi s).rw = s.rw := rfl
@[simp] theorem eHi_e (s : State) : (eHi s).e = 1 := rfl
@[simp] theorem eHi_aux (s : State) : (eHi s).aux = s.aux := rfl
@[simp] theorem eHi_bf (s : State) : (eHi s).bf = s.bf := rfl
@[simp] theorem eHi_seq (s : State) : (eHi s).seq = s.seq := rfl
@[simp] theorem eHi_pins (s : State) : (eHi s).pins = s.pins ++ [.eHi] := rfl
@[simp] theorem eHi_bus (s : State) : (eHi s).bus = s.bus := rfl
@[simp] theorem eHi_params (s : State) : (eHi s).params = s.params := rfl
@[simp] theorem eHi_port (s : State) : (eHi s).port = s.port := rfl
@[simp] theorem eHi_life (s : State) : (eHi s).life = s.life := rfl
@[simp] theorem eHi_oracle (s : State) : (eHi s).oracle = s.oracle := rfl
@[simp] theorem eHi_resetIn (s : State) : (eHi s).resetIn = s.resetIn := rfl
@[simp] theorem eHi_draws (s : State) : (eHi s).draws = s.draws := rfl
@[simp] theorem eHi_mode (s : State) : (eHi s).mode = s.mode := rfl

/-! ### `dly` -/

@[simp] theorem dly_op (t : Nat) (s : State) : (dly t s).op = s.op := rfl
@[simp] theorem dly_crs (t : Nat) (s : State) : (dly t s).crs = s.crs := rfl
@[simp] theorem dly_crw (t : Nat) (s : State) : (dly t s).crw = s.crw := rfl
@[simp] theorem dly_cdata (t : Nat) (s : State) : (dly t s).cdata = s.cdata := rfl
@[simp] theorem dly_dout (t : Nat) (s : State) : (dly t s).dout = s.dout := rfl
@[simp] theorem dly_ddir (t : Nat) (s : State) : (dly t s).ddir = s.ddir := rfl
@[simp] theorem dly_dpue (t : Nat) (s : State) : (dly t s).dpue = s.dpue := rfl
@[simp] theorem dly_rs (t : Nat) (s : State) : (dly t s).rs = s.rs := rfl
@[simp] theorem dly_rw (t : Nat) (s : State) : (dly t s).rw = s.rw := rfl
@[simp] theorem dly_e (t : Nat) (s : State) : (dly t s).e = s.e := rfl
@[simp] theorem dly_aux (t : Nat) (s : State) : (dly t s).aux = s.aux := rfl
@[simp] theorem dly_bf (t : Nat) (s : State) : (dly t s).bf = s.bf := rfl
@[simp] theorem dly_seq (t : Nat) (s : State) : (dly t s).seq = s.seq := rfl
@[simp] theorem dly_pins (t : Nat) (s : State) : (dly t s).pins = s.pins ++ [.dly t] := rfl
@[simp] theorem dly_bus (t : Nat) (s : State) : (dly t s).bus = s.bus := rfl
@[simp] theorem dly_params (t : Nat) (s : State) : (dly t s).params = s.params := rfl
@[simp] theorem dly_port (t : Nat) (s : State) : (dly t s).port = s.port := rfl
@[simp] theorem dly_life (t : Nat) (s : State) : (dly t s).life = s.life := rfl
@[simp] theorem dly_oracle (t : Nat) (s : State) : (dly t s).oracle = s.oracle := rfl
@[simp] theorem dly_resetIn (t : Nat) (s : State) : (dly t s).resetIn = s.resetIn := rfl
@[simp] theorem dly_draws (t : Nat) (s : State) : (dly t s).draws = s.draws := rfl
@[simp] theorem dly_mode (t : Nat) (s : State) : (dly t s).mode = s.mode := rfl

/-! ### `smp` -/

@[simp] theorem smp_op (b : Bit) (s : State) : (smp b s).op = s.op := rfl
@[simp] theorem smp_crs (b : Bit) (s : State) : (smp b s).crs = s.crs := rfl
@[simp] theorem smp_crw (b : Bit) (s : State) : (smp b s).crw = s.crw := rfl
@[simp] theorem smp_cdata (b : Bit) (s : State) : (smp b s).cdata = s.cdata := rfl
@[simp] theorem smp_dout (b : Bit) (s : State) : (smp b s).dout = s.dout := rfl
@[simp] theorem smp_ddir (b : Bit) (s : State) : (smp b s).ddir = s.ddir := rfl
@[simp] theorem smp_dpue (b : Bit) (s : State) : (smp b s).dpue = s.dpue := rfl
@[simp] theorem smp_rs (b : Bit) (s : State) : (smp b s).rs = s.rs := rfl
@[simp] theorem smp_rw (b : Bit) (s : State) : (smp b s).rw = s.rw := rfl
@[simp] theorem smp_e (b : Bit) (s : State) : (smp b s).e = s.e := rfl
@[simp] theorem smp_aux (b : Bit) (s : State) : (smp b s).aux = s.aux := rfl
@[simp] theorem smp_bf (b : Bit) (s : State) : (smp b s).bf = b := rfl
@[simp] theorem smp_seq (b : Bit) (s : State) : (smp b s).seq = s.seq := rfl
@[simp] theorem smp_pins (b : Bit) (s : State) : (smp b s).pins = s.pins ++ [.smp b] := rfl
@[simp] theorem smp_bus (b : Bit) (s : State) : (smp b s).bus = s.bus := rfl
@[simp] theorem smp_params (b : Bit) (s : State) : (smp b s).params = s.params := rfl
@[simp] theorem smp_port (b : Bit) (s : State) : (smp b s).port = s.port := rfl
@[simp] theorem smp_life (b : Bit) (s : State) : (smp b s).life = s.life := rfl
@[simp] theorem smp_oracle (b : Bit) (s : State) : (smp b s).oracle = s.oracle := rfl
@[simp] theorem smp_resetIn (b : Bit) (s : State) : (smp b s).resetIn = s.resetIn := rfl
@[simp] theorem smp_draws (b : Bit) (s : State) : (smp b s).draws = s.draws := rfl
@[simp] theorem smp_mode (b : Bit) (s : State) : (smp b s).mode = s.mode := rfl

/-! ### `eLo` -/

@[simp] theorem eLo_op (o : Option Bit) (s : State) : (eLo o s).op = s.op := rfl
@[simp] theorem eLo_crs (o : Option Bit) (s : State) : (eLo o s).crs = s.crs := rfl
@[simp] theorem eLo_crw (o : Option Bit) (s : State) : (eLo o s).crw = s.crw := rfl
@[simp] theorem eLo_cdata (o : Option Bit) (s : State) : (eLo o s).cdata = s.cdata := rfl
@[simp] theorem eLo_dout (o : Option Bit) (s : State) : (eLo o s).dout = s.dout := rfl
@[simp] theorem eLo_ddir (o : Option Bit) (s : State) : (eLo o s).ddir = s.ddir := rfl
@[simp] theorem eLo_dpue (o : Option Bit) (s : State) : (eLo o s).dpue = s.dpue := rfl
@[simp] theorem eLo_rs (o : Option Bit) (s : State) : (eLo o s).rs = s.rs := rfl
@[simp] theorem eLo_rw (o : Option Bit) (s : State) : (eLo o s).rw = s.rw := rfl
@[simp] theorem eLo_e (o : Option Bit) (s : State) : (eLo o s).e = 0 := rfl
@[simp] theorem eLo_aux (o : Option Bit) (s : State) : (eLo o s).aux = s.aux := rfl
@[simp] theorem eLo_bf (o : Option Bit) (s : State) : (eLo o s).bf = s.bf := rfl
@[simp] theorem eLo_seq (o : Option Bit) (s : State) : (eLo o s).seq = s.seq := rfl
@[simp] theorem eLo_pins (o : Option Bit) (s : State) : (eLo o s).pins = s.pins ++ [.eLo] := rfl
@[simp] theorem eLo_bus (o : Option Bit) (s : State) : (eLo o s).bus = s.bus ++ [⟨s.rs, s.rw, s.ddir, s.dout, o⟩] := rfl
@[simp] theorem eLo_params (o : Option Bit) (s : State) : (eLo o s).params = s.params := rfl
@[simp] theorem eLo_port (o : Option Bit) (s : State) : (eLo o s).port = s.port := rfl
@[simp] theorem eLo_life (o : Option Bit) (s : State) : (eLo o s).life = s.life := rfl
@[simp] theorem eLo_oracle (o : Option Bit) (s : State) : (eLo o s).oracle = s.oracle := rfl
@[simp] theorem eLo_resetIn (o : Option Bit) (s : State) : (eLo o s).resetIn = s.resetIn := rfl
@[simp] theorem eLo_draws (o : Option Bit) (s : State) : (eLo o s).draws = s.draws := rfl
@[simp] theorem eLo_mode (o : Option Bit) (s : State) : (eLo o s).mode = s.mode := rfl

/-! ### `dirAll` -/

@[simp] theorem dirAll_op (s : State) : (dirAll s).op = s.op := rfl
@[simp] theorem dirAll_crs (s : State) : (dirAll s).crs = s.crs := rfl
@[simp] theorem dirAll_crw (s : State) : (dirAll s).crw = s.crw := rfl
@[simp] theorem dirAll_cdata (s : State) : (dirAll s).cdata = s.cdata := rfl
@[simp] theorem dirAll_dout (s : State) : (dirAll s).dout = s.dout := rfl
@[simp] theorem dirAll_ddir (s : State) : (dirAll s).ddir = 0xFF := rfl
@[simp] theorem dirAll_dpue (s : State) : (dirAll s).dpue = s.dpue := rfl
@[simp] theorem dirAll_rs (s : State) : (dirAll s).rs = s.rs := rfl
@[simp] theorem dirAll_rw (s : State) : (dirAll s).rw = s.rw := rfl
@[simp] theorem dirAll_e (s : State) : (dirAll s).e = s.e := rfl
@[simp] theorem dirAll_aux (s : State) : (dirAll s).aux = s.aux := rfl
@[simp] theorem dirAll_bf (s : State) : (dirAll s).bf = s.bf := rfl
@[simp] theorem dirAll_seq (s : State) : (dirAll s).seq = s.seq := rfl
@[simp] theorem dirAll_pins (s : State) : (dirAll s).pins = s.pins ++ [.dirAll] := rfl
@[simp] theorem dirAll_bus (s : State) : (dirAll s).bus = s.bus := rfl
@[simp] theorem dirAll_params (s : State) : (dirAll s).params = s.params := rfl
@[simp] theorem dirAll_port (s : State) : (dirAll s).port = s.port := rfl
@[simp] theorem dirAll_life (s : State) : (dirAll s).life = s.life := rfl
@[simp] theorem dirAll_oracle (s : State) : (dirAll s).oracle = s.oracle := rfl
@[simp] theorem dirAll_resetIn (s : State) : (dirAll s).resetIn = s.resetIn := rfl
@[simp] theorem dirAll_draws (s : State) : (dirAll s).draws = s.draws := rfl
@[simp] theorem dirAll_mode (s : State) : (dirAll s).mode = s.mode := rfl

/-! ### `dat8` -/

@[simp] theorem dat8_op (v : Byte) (s : State) : (dat8 v s).op = s.op := rfl
@[simp] theorem dat8_crs (v : Byte) (s : State) : (dat8 v s).crs = s.crs := rfl
@[simp] theorem dat8_crw (v : Byte) (s : State) : (dat8 v s).crw = s.crw := rfl
@[simp] theorem dat8_cdata (v : Byte) (s : State) : (dat8 v s).cdata = s.cdata := rfl
@[simp] theorem dat8_dout (v : Byte) (s : State) : (dat8 v s).dout = v := rfl
@[simp] theorem dat8_ddir (v : Byte) (s : State) : (dat8 v s).ddir = s.ddir := rfl
@[simp] theorem dat8_dpue (v : Byte) (s : State) : (dat8 v s).dpue = s.dpue := rfl
@[simp] theorem dat8_rs (v : Byte) (s : State) : (dat8 v s).rs = s.rs := rfl
@[simp] theorem dat8_rw (v : Byte) (s : State) : (dat8 v s).rw = s.rw := rfl
@[simp] theorem dat8_e (v : Byte) (s : State) : (dat8 v s).e = s.e := rfl
@[simp] theorem dat8_aux (v : Byte) (s : State) : (dat8 v s).aux = s.aux := rfl
@[simp] theorem dat8_bf (v : Byte) (s : State) : (dat8 v s).bf = s.bf := rfl
@[simp] theorem dat8_seq (v : Byte) (s : State) : (dat8 v s).seq = s.seq := rfl
@[simp] theorem dat8_pins (v : Byte) (s : State) : (dat8 v s).pins = s.pins ++ [.dat8 v] := rfl
@[simp] theorem dat8_bus (v : Byte) (s : State) : (dat8 v s).bus = s.bus := rfl
@[simp] theorem dat8_params (v : Byte) (s : State) : (dat8 v s).params = s.params := rfl
@[simp] theorem dat8_port (v : Byte) (s : State) : (dat8 v s).port = s.port := rfl
@[simp] theorem dat8_life (v : Byte) (s : State) : (dat8 v s).life = s.life := rfl
@[simp] theorem dat8_oracle (v : Byte) (s : State) : (dat8 v s).oracle = s.oracle := rfl
@[simp] theorem dat8_resetIn (v : Byte) (s : State) : (dat8 v s).resetIn = s.resetIn := rfl
@[simp] theorem dat8_draws (v : Byte) (s : State) : (dat8 v s).draws = s.draws := rfl
@[simp] theorem dat8_mode (v : Byte) (s : State) : (dat8 v s).mode = s.mode := rfl

/-! ### `dat4` -/

@[simp] theorem dat4_op (n : Nibble) (s : State) : (dat4 n s).op = s.op := rfl
@[simp] theorem dat4_crs (n : Nibble) (s : State) : (dat4 n s).crs = s.crs := rfl
@[simp] theorem dat4_crw (n : Nibble) (s : State) : (dat4 n s).crw = s.crw := rfl
@[simp] theorem dat4_cdata (n : Nibble) (s : State) : (dat4 n s).cdata = s.cdata := rfl
@[simp] theorem dat4_dout (n : Nibble) (s : State) : (dat4 n s).dout = upperLines n s.dout := rfl
@[simp] theorem dat4_ddir (n : Nibble) (s : State) : (dat4 n s).ddir = s.ddir := rfl
@[simp] theorem dat4_dpue (n : Nibble) (s : State) : (dat4 n s).dpue = s.dpue := rfl
@[simp] theorem dat4_rs (n : Nibble) (s : State) : (dat4 n s).rs = s.rs := rfl
@[simp] theorem dat4_rw (n : Nibble) (s : State) : (dat4 n s).rw = s.rw := rfl
@[simp] theorem dat4_e (n : Nibble) (s : State) : (dat4 n s).e = s.e := rfl
@[simp] theorem dat4_aux (n : Nibble) (s : State) : (dat4 n s).aux = s.aux := rfl
@[simp] theorem dat4_bf (n : Nibble) (s : State) : (dat4 n s).bf = s.bf := rfl
@[simp] theorem dat4_seq (n : Nibble) (s : State) : (dat4 n s).seq = s.seq := rfl
@[simp] theorem dat4_pins (n : Nibble) (s : State) : (dat4 n s).pins = s.pins ++ [.dat4 n] := rfl
@[simp] theorem dat4_bus (n : Nibble) (s : State) : (dat4 n s).bus = s.bus := rfl
@[simp] theorem dat4_params (n : Nibble) (s : State) : (dat4 n s).params = s.params := rfl
@[simp] theorem dat4_port (n : Nibble) (s : State) : (dat4 n s).port = s.port := rfl
@[simp] theorem dat4_life (n : Nibble) (s : State) : (dat4 n s).life = s.life := rfl
@[simp] theorem dat4_oracle (n : Nibble) (s : State) : (dat4 n s).oracle = s.oracle := rfl
@[simp] theorem dat4_resetIn (n : Nibble) (s : State) : (dat4 n s).resetIn = s.resetIn := rfl
@[simp] theorem dat4_draws (n : Nibble) (s : State) : (dat4 n s).draws = s.draws := rfl
@[simp] theorem dat4_mode (n : Nibble) (s : State) : (dat4 n s).mode = s.mode := rfl

/-! ### `accept` -/

@[simp] theorem accept_op (w : CmdWord) (q : Seq) (s : State) : (accept w q s).op = opField w := rfl
@[simp] theorem accept_crs (w : CmdWord) (q : Seq) (s : State) : (accept w q s).crs = rsField w := rfl
@[simp] theorem accept_crw (w : CmdWord) (q : Seq) (s : State) : (accept w q s).crw = rwField w := rfl
@[simp] theorem accept_cdata (w : CmdWord) (q : Seq) (s : State) : (accept w q s).cdata = byteField w := rfl
@[simp] theorem accept_dout (w : CmdWord) (q : Seq) (s : State) : (accept w q s).dout = s.dout := rfl
@[simp] theorem accept_ddir (w : CmdWord) (q : Seq) (s : State) : (accept w q s).ddir = s.ddir := rfl
@[simp] theorem accept_dpue (w : CmdWord) (q : Seq) (s : State) : (accept w q s).dpue = s.dpue := rfl
@[simp] theorem accept_rs (w : CmdWord) (q : Seq) (s : State) : (accept w q s).rs = s.rs := rfl
@[simp] theorem accept_rw (w : CmdWord) (q : Seq) (s : State) : (accept w q s).rw = s.rw := rfl
@[simp] theorem accept_e (w : CmdWord) (q : Seq) (s : State) : (accept w q s).e = s.e := rfl
@[simp] theorem accept_aux (w : CmdWord) (q : Seq) (s : State) : (accept w q s).aux = s.aux := rfl
@[simp] theorem accept_bf (w : CmdWord) (q : Seq) (s : State) : (accept w q s).bf = s.bf := rfl
@[simp] theorem accept_seq (w : CmdWord) (q : Seq) (s : State) : (accept w q s).seq = q := rfl
@[simp] theorem accept_pins (w : CmdWord) (q : Seq) (s : State) : (accept w q s).pins = s.pins ++ [.acc w] := rfl
@[simp] theorem accept_bus (w : CmdWord) (q : Seq) (s : State) : (accept w q s).bus = s.bus := rfl
@[simp] theorem accept_params (w : CmdWord) (q : Seq) (s : State) : (accept w q s).params = s.params := rfl
@[simp] theorem accept_port (w : CmdWord) (q : Seq) (s : State) : (accept w q s).port = s.port := rfl
@[simp] theorem accept_life (w : CmdWord) (q : Seq) (s : State) : (accept w q s).life = s.life := rfl
@[simp] theorem accept_oracle (w : CmdWord) (q : Seq) (s : State) : (accept w q s).oracle = s.oracle := rfl
@[simp] theorem accept_resetIn (w : CmdWord) (q : Seq) (s : State) : (accept w q s).resetIn = s.resetIn := rfl
@[simp] theorem accept_draws (w : CmdWord) (q : Seq) (s : State) : (accept w q s).draws = s.draws := rfl
@[simp] theorem accept_mode (w : CmdWord) (q : Seq) (s : State) : (accept w q s).mode = s.mode := rfl

/-! ### `ret` -/

@[simp] theorem ret_op (s : State) : (ret s).op = s.op := rfl
@[simp] theorem ret_crs (s : State) : (ret s).crs = s.crs := rfl
@[simp] theorem ret_crw (s : State) : (ret s).crw = s.crw := rfl
@[simp] theorem ret_cdata (s : State) : (ret s).cdata = s.cdata := rfl
@[simp] theorem ret_dout (s : State) : (ret s).dout = s.dout := rfl
@[simp] theorem ret_ddir (s : State) : (ret s).ddir = s.ddir := rfl
@[simp] theorem ret_dpue (s : State) : (ret s).dpue = s.dpue := rfl
@[simp] theorem ret_rs (s : State) : (ret s).rs = s.rs := rfl
@[simp] theorem ret_rw (s : State) : (ret s).rw = s.rw := rfl
@[simp] theorem ret_e (s : State) : (ret s).e = s.e := rfl
@[simp] theorem ret_aux (s : State) : (ret s).aux = s.aux := rfl
@[simp] theorem ret_bf (s : State) : (ret s).bf = s.bf := rfl
@[simp] theorem ret_seq (s : State) : (ret s).seq = .IDLE := rfl
@[simp] theorem ret_pins (s : State) : (ret s).pins = s.pins ++ [.ret] := rfl
@[simp] theorem ret_bus (s : State) : (ret s).bus = s.bus := rfl
@[simp] theorem ret_params (s : State) : (ret s).params = s.params := rfl
@[simp] theorem ret_port (s : State) : (ret s).port = s.port := rfl
@[simp] theorem ret_life (s : State) : (ret s).life = s.life := rfl
@[simp] theorem ret_oracle (s : State) : (ret s).oracle = s.oracle := rfl
@[simp] theorem ret_resetIn (s : State) : (ret s).resetIn = s.resetIn := rfl
@[simp] theorem ret_draws (s : State) : (ret s).draws = s.draws := rfl
@[simp] theorem ret_mode (s : State) : (ret s).mode = s.mode := rfl

/-! ### `hostEnter` -/

@[simp] theorem hostEnter_op (l : LifeCycle) (s : State) : (hostEnter l s).op = s.op := rfl
@[simp] theorem hostEnter_crs (l : LifeCycle) (s : State) : (hostEnter l s).crs = s.crs := rfl
@[simp] theorem hostEnter_crw (l : LifeCycle) (s : State) : (hostEnter l s).crw = s.crw := rfl
@[simp] theorem hostEnter_cdata (l : LifeCycle) (s : State) : (hostEnter l s).cdata = s.cdata := rfl
@[simp] theorem hostEnter_dout (l : LifeCycle) (s : State) : (hostEnter l s).dout = s.dout := rfl
@[simp] theorem hostEnter_ddir (l : LifeCycle) (s : State) : (hostEnter l s).ddir = s.ddir := rfl
@[simp] theorem hostEnter_dpue (l : LifeCycle) (s : State) : (hostEnter l s).dpue = s.dpue := rfl
@[simp] theorem hostEnter_rs (l : LifeCycle) (s : State) : (hostEnter l s).rs = s.rs := rfl
@[simp] theorem hostEnter_rw (l : LifeCycle) (s : State) : (hostEnter l s).rw = s.rw := rfl
@[simp] theorem hostEnter_e (l : LifeCycle) (s : State) : (hostEnter l s).e = s.e := rfl
@[simp] theorem hostEnter_aux (l : LifeCycle) (s : State) : (hostEnter l s).aux = s.aux := rfl
@[simp] theorem hostEnter_bf (l : LifeCycle) (s : State) : (hostEnter l s).bf = s.bf := rfl
@[simp] theorem hostEnter_seq (l : LifeCycle) (s : State) : (hostEnter l s).seq = s.seq := rfl
@[simp] theorem hostEnter_pins (l : LifeCycle) (s : State) : (hostEnter l s).pins = s.pins := rfl
@[simp] theorem hostEnter_bus (l : LifeCycle) (s : State) : (hostEnter l s).bus = s.bus := rfl
@[simp] theorem hostEnter_params (l : LifeCycle) (s : State) : (hostEnter l s).params = s.params := rfl
@[simp] theorem hostEnter_port (l : LifeCycle) (s : State) : (hostEnter l s).port = s.port := rfl
@[simp] theorem hostEnter_life (l : LifeCycle) (s : State) : (hostEnter l s).life = l := rfl
@[simp] theorem hostEnter_oracle (l : LifeCycle) (s : State) : (hostEnter l s).oracle = s.oracle := rfl
@[simp] theorem hostEnter_resetIn (l : LifeCycle) (s : State) : (hostEnter l s).resetIn = s.resetIn := rfl
@[simp] theorem hostEnter_draws (l : LifeCycle) (s : State) : (hostEnter l s).draws = s.draws := rfl
@[simp] theorem hostEnter_mode (l : LifeCycle) (s : State) : (hostEnter l s).mode = s.mode := rfl

/-! ### `hostCall` -/

@[simp] theorem hostCall_op (op : PublicOp) (s : State) : (hostCall op s).op = s.op := rfl
@[simp] theorem hostCall_crs (op : PublicOp) (s : State) : (hostCall op s).crs = s.crs := rfl
@[simp] theorem hostCall_crw (op : PublicOp) (s : State) : (hostCall op s).crw = s.crw := rfl
@[simp] theorem hostCall_cdata (op : PublicOp) (s : State) : (hostCall op s).cdata = s.cdata := rfl
@[simp] theorem hostCall_dout (op : PublicOp) (s : State) : (hostCall op s).dout = s.dout := rfl
@[simp] theorem hostCall_ddir (op : PublicOp) (s : State) : (hostCall op s).ddir = s.ddir := rfl
@[simp] theorem hostCall_dpue (op : PublicOp) (s : State) : (hostCall op s).dpue = s.dpue := rfl
@[simp] theorem hostCall_rs (op : PublicOp) (s : State) : (hostCall op s).rs = s.rs := rfl
@[simp] theorem hostCall_rw (op : PublicOp) (s : State) : (hostCall op s).rw = s.rw := rfl
@[simp] theorem hostCall_e (op : PublicOp) (s : State) : (hostCall op s).e = s.e := rfl
@[simp] theorem hostCall_aux (op : PublicOp) (s : State) : (hostCall op s).aux = s.aux := rfl
@[simp] theorem hostCall_bf (op : PublicOp) (s : State) : (hostCall op s).bf = s.bf := rfl
@[simp] theorem hostCall_seq (op : PublicOp) (s : State) : (hostCall op s).seq = s.seq := rfl
@[simp] theorem hostCall_pins (op : PublicOp) (s : State) : (hostCall op s).pins = s.pins := rfl
@[simp] theorem hostCall_bus (op : PublicOp) (s : State) : (hostCall op s).bus = s.bus := rfl
@[simp] theorem hostCall_params (op : PublicOp) (s : State) : (hostCall op s).params = s.params := rfl
@[simp] theorem hostCall_port (op : PublicOp) (s : State) : (hostCall op s).port = issuedLines s.life s.params op ++ s.port := rfl
@[simp] theorem hostCall_life (op : PublicOp) (s : State) : (hostCall op s).life = s.life := rfl
@[simp] theorem hostCall_oracle (op : PublicOp) (s : State) : (hostCall op s).oracle = s.oracle := rfl
@[simp] theorem hostCall_resetIn (op : PublicOp) (s : State) : (hostCall op s).resetIn = s.resetIn := rfl
@[simp] theorem hostCall_draws (op : PublicOp) (s : State) : (hostCall op s).draws = s.draws := rfl
@[simp] theorem hostCall_mode (op : PublicOp) (s : State) : (hostCall op s).mode = s.mode := rfl

/-! ### `withPort` -/

@[simp] theorem State.withPort_op (s : State) (r : List HostAction) : (s.withPort r).op = s.op := rfl
@[simp] theorem State.withPort_crs (s : State) (r : List HostAction) : (s.withPort r).crs = s.crs := rfl
@[simp] theorem State.withPort_crw (s : State) (r : List HostAction) : (s.withPort r).crw = s.crw := rfl
@[simp] theorem State.withPort_cdata (s : State) (r : List HostAction) : (s.withPort r).cdata = s.cdata := rfl
@[simp] theorem State.withPort_dout (s : State) (r : List HostAction) : (s.withPort r).dout = s.dout := rfl
@[simp] theorem State.withPort_ddir (s : State) (r : List HostAction) : (s.withPort r).ddir = s.ddir := rfl
@[simp] theorem State.withPort_dpue (s : State) (r : List HostAction) : (s.withPort r).dpue = s.dpue := rfl
@[simp] theorem State.withPort_rs (s : State) (r : List HostAction) : (s.withPort r).rs = s.rs := rfl
@[simp] theorem State.withPort_rw (s : State) (r : List HostAction) : (s.withPort r).rw = s.rw := rfl
@[simp] theorem State.withPort_e (s : State) (r : List HostAction) : (s.withPort r).e = s.e := rfl
@[simp] theorem State.withPort_aux (s : State) (r : List HostAction) : (s.withPort r).aux = s.aux := rfl
@[simp] theorem State.withPort_bf (s : State) (r : List HostAction) : (s.withPort r).bf = s.bf := rfl
@[simp] theorem State.withPort_seq (s : State) (r : List HostAction) : (s.withPort r).seq = s.seq := rfl
@[simp] theorem State.withPort_pins (s : State) (r : List HostAction) : (s.withPort r).pins = s.pins := rfl
@[simp] theorem State.withPort_bus (s : State) (r : List HostAction) : (s.withPort r).bus = s.bus := rfl
@[simp] theorem State.withPort_params (s : State) (r : List HostAction) : (s.withPort r).params = s.params := rfl
@[simp] theorem State.withPort_port (s : State) (r : List HostAction) : (s.withPort r).port = r := rfl
@[simp] theorem State.withPort_life (s : State) (r : List HostAction) : (s.withPort r).life = s.life := rfl
@[simp] theorem State.withPort_oracle (s : State) (r : List HostAction) : (s.withPort r).oracle = s.oracle := rfl
@[simp] theorem State.withPort_resetIn (s : State) (r : List HostAction) : (s.withPort r).resetIn = s.resetIn := rfl
@[simp] theorem State.withPort_draws (s : State) (r : List HostAction) : (s.withPort r).draws = s.draws := rfl
@[simp] theorem State.withPort_mode (s : State) (r : List HostAction) : (s.withPort r).mode = s.mode := rfl

/-! ### `resetSampled` -/

@[simp] theorem State.resetSampled_op (s : State) : (s.resetSampled).op = s.op := rfl
@[simp] theorem State.resetSampled_crs (s : State) : (s.resetSampled).crs = s.crs := rfl
@[simp] theorem State.resetSampled_crw (s : State) : (s.resetSampled).crw = s.crw := rfl
@[simp] theorem State.resetSampled_cdata (s : State) : (s.resetSampled).cdata = s.cdata := rfl
@[simp] theorem State.resetSampled_dout (s : State) : (s.resetSampled).dout = s.dout := rfl
@[simp] theorem State.resetSampled_ddir (s : State) : (s.resetSampled).ddir = s.ddir := rfl
@[simp] theorem State.resetSampled_dpue (s : State) : (s.resetSampled).dpue = s.dpue := rfl
@[simp] theorem State.resetSampled_rs (s : State) : (s.resetSampled).rs = s.rs := rfl
@[simp] theorem State.resetSampled_rw (s : State) : (s.resetSampled).rw = s.rw := rfl
@[simp] theorem State.resetSampled_e (s : State) : (s.resetSampled).e = s.e := rfl
@[simp] theorem State.resetSampled_aux (s : State) : (s.resetSampled).aux = s.aux := rfl
@[simp] theorem State.resetSampled_bf (s : State) : (s.resetSampled).bf = s.bf := rfl
@[simp] theorem State.resetSampled_seq (s : State) : (s.resetSampled).seq = s.seq := rfl
@[simp] theorem State.resetSampled_pins (s : State) : (s.resetSampled).pins = s.pins := rfl
@[simp] theorem State.resetSampled_bus (s : State) : (s.resetSampled).bus = s.bus := rfl
@[simp] theorem State.resetSampled_params (s : State) : (s.resetSampled).params = s.params := rfl
@[simp] theorem State.resetSampled_port (s : State) : (s.resetSampled).port = s.port := rfl
@[simp] theorem State.resetSampled_life (s : State) : (s.resetSampled).life = s.life := rfl
@[simp] theorem State.resetSampled_oracle (s : State) : (s.resetSampled).oracle = s.oracle := rfl
@[simp] theorem State.resetSampled_resetIn (s : State) : (s.resetSampled).resetIn = s.resetIn.tail := rfl
@[simp] theorem State.resetSampled_draws (s : State) : (s.resetSampled).draws = s.draws := rfl
@[simp] theorem State.resetSampled_mode (s : State) : (s.resetSampled).mode = s.mode := rfl

/-! ### `SEQ` and the pin operations do not meet: a `goto` moves outwards, and a later one wins -/

@[simp] theorem State.goto_goto (s : State) (p q : Seq) : (s.goto p).goto q = s.goto q := rfl
@[simp] theorem State.stillBusy_goto (s : State) (q : Seq) : (s.goto q).stillBusy = s.stillBusy := rfl
@[simp] theorem cfg7In_goto (s : State) (q : Seq) : cfg7In (s.goto q) = (cfg7In s).goto q := rfl
@[simp] theorem cfg7Out_goto (s : State) (q : Seq) : cfg7Out (s.goto q) = (cfg7Out s).goto q := rfl
@[simp] theorem ctl_goto (a b : Bit) (s : State) (q : Seq) : ctl a b (s.goto q) = (ctl a b s).goto q := rfl
@[simp] theorem eHi_goto (s : State) (q : Seq) : eHi (s.goto q) = (eHi s).goto q := rfl
@[simp] theorem dly_goto (t : Nat) (s : State) (q : Seq) : dly t (s.goto q) = (dly t s).goto q := rfl
@[simp] theorem smp_goto (b : Bit) (s : State) (q : Seq) : smp b (s.goto q) = (smp b s).goto q := rfl
@[simp] theorem eLo_goto (o : Option Bit) (s : State) (q : Seq) : eLo o (s.goto q) = (eLo o s).goto q := rfl
@[simp] theorem dirAll_goto (s : State) (q : Seq) : dirAll (s.goto q) = (dirAll s).goto q := rfl
@[simp] theorem dat8_goto (v : Byte) (s : State) (q : Seq) : dat8 v (s.goto q) = (dat8 v s).goto q := rfl
@[simp] theorem dat4_goto (n : Nibble) (s : State) (q : Seq) : dat4 n (s.goto q) = (dat4 n s).goto q := rfl
@[simp] theorem ret_goto (s : State) (q : Seq) : ret (s.goto q) = ret s := rfl

end Sys2Proof.Machine
end

