-- ==== Sys2Proof/Laws/Ops.lean ====
section
/-! SUPPORT. What the shared operations do: the fields of command words, the nibble-splitter, the module's answers, and
acceptance. -/

namespace Sys2Proof

theorem Bit.eq_zero_or_one (b : Bit) : b = 0 ∨ b = 1 := by revert b; decide

theorem Bit.ne_one_iff (b : Bit) : b ≠ 1 ↔ b = 0 := by revert b; decide

theorem Bit.ne_zero_iff (b : Bit) : b ≠ 0 ↔ b = 1 := by revert b; decide

end Sys2Proof

namespace Sys2Proof.Machine

/-! ### Fields of the words that are accepted (30_encoding.md R82) -/

set_option maxRecDepth 100000 in
theorem sendWord_eq_append :
    ∀ (rs rw : Bit) (byte : Byte), sendWord rs rw byte = (0b00#2 ++ rs ++ rw ++ byte : BitVec 12) := by
  decide

set_option maxRecDepth 100000 in
theorem opField_sendWord : ∀ (rs rw : Bit) (byte : Byte), opField (sendWord rs rw byte) = 0 := by decide

set_option maxRecDepth 100000 in
theorem rsField_sendWord : ∀ (rs rw : Bit) (byte : Byte), rsField (sendWord rs rw byte) = rs := by decide

set_option maxRecDepth 100000 in
theorem rwField_sendWord : ∀ (rs rw : Bit) (byte : Byte), rwField (sendWord rs rw byte) = rw := by decide

set_option maxRecDepth 100000 in
theorem byteField_sendWord : ∀ (rs rw : Bit) (byte : Byte), byteField (sendWord rs rw byte) = byte := by decide

theorem opField_rawnibWord : ∀ n : Nibble, opField (rawnibWord n) = 1 := by decide

theorem rsField_rawnibWord : ∀ n : Nibble, rsField (rawnibWord n) = 0 := by decide

theorem rwField_rawnibWord : ∀ n : Nibble, rwField (rawnibWord n) = 0 := by decide

theorem byteField_rawnibWord : ∀ n : Nibble, byteField (rawnibWord n) = n.setWidth 8 := by decide

/-! ### What a word decodes to, by its fields (30_encoding.md R87, R88) -/

theorem decode_sendRead {w : CmdWord} (h0 : opField w = 0) (h1 : rwField w = 1) :
    decode w = .reservedSendRead (rsField w) (byteField w) := by
  simp [decode, h0, h1]

theorem decode_dataWrite {w : CmdWord} (h0 : opField w = 0) (h1 : rwField w = 0) (h2 : rsField w = 1) :
    decode w = .wrdata (byteField w) := by
  simp [decode, h0, h1, h2]

theorem decode_instructionWrite {w : CmdWord} (h0 : opField w = 0) (h1 : rwField w = 0) (h2 : rsField w = 0) :
    decode w = decodeInstructionByte (byteField w) := by
  simp [decode, h0, h1, h2]

theorem decode_rawnib {w : CmdWord} (h0 : opField w = 1) (h1 : rawReservedField w = 0) :
    decode w = .rawnib (nibbleField w) := by
  simp [decode, h0, h1]

theorem decode_rawnibBits {w : CmdWord} (h0 : opField w = 1) (h1 : rawReservedField w ≠ 0) :
    decode w = .reservedRawnibBits (rawReservedField w) (nibbleField w) := by
  rw [decode, h0]
  exact if_neg h1

theorem decode_poll {w : CmdWord} (h0 : opField w = 2) (h1 : payloadField w = 0) : decode w = .poll := by
  simp [decode, h0, h1]

theorem decode_pollBits {w : CmdWord} (h0 : opField w = 2) (h1 : payloadField w ≠ 0) :
    decode w = .reservedPollBits (payloadField w) := by
  rw [decode, h0]
  exact if_neg h1

theorem decode_op3 {w : CmdWord} (h : opField w = 3) : decode w = .reservedOp (payloadField w) := by
  simp [decode, h]

theorem opField_cases (w : CmdWord) : opField w = 0 ∨ opField w = 1 ∨ opField w = 2 ∨ opField w = 3 := by
  generalize opField w = o
  revert o
  decide

/-! ### The nibble-splitter (41_instruction_encoder.md R149: "the split loses nothing") -/

theorem nibbles_rejoin (b : Byte) : highNibble b ++ lowNibble b = b := by
  revert b
  set_option maxRecDepth 100000 in decide

theorem lowNibble_setWidth : ∀ n : Nibble, lowNibble (n.setWidth 8) = n := by decide

theorem rawByte_eq_append : ∀ n : Nibble, rawByte n = (n ++ 0#4 : BitVec 8) := by decide

/-- A data write to `D[7:4]` leaves `DOUT[3:0]` alone (40_bus_transport.md R121). -/
theorem upperLines_low : ∀ (n : Nibble) (d : Byte), upperLines n d &&& 0x0F = d &&& 0x0F := by
  set_option maxRecDepth 100000 in decide

/-- A data write to `D[7:4]` undoes an earlier one. -/
theorem upperLines_upperLines (n m : Nibble) (d : Byte) : upperLines n (upperLines m d) = upperLines n d := by
  exact congrArg (fun low => n.setWidth 8 <<< 4 ||| low) (upperLines_low m d)

/-! ### `DDIR[7]` and `DPUE[7]` through a poll (40_bus_transport.md R112) -/

theorem line7_in : (0xFF : Byte) &&& 0x7F = 0x7F := by decide

theorem line7_out : (0x7F : Byte) ||| 0x80 = 0xFF := by decide

theorem pull7_on : (0x00 : Byte) ||| 0x80 = 0x80 := by decide

theorem pull7_off : (0x80 : Byte) &&& 0x7F = 0x00 := by decide

/-! ### The module's answers (20_memory.md R72)

An operation other than a sample leaves the sample number alone; a sample takes it one on. -/

@[simp] theorem sampleCount_goto (q : Seq) (s : State) : (State.goto s q).sampleCount = s.sampleCount := rfl
@[simp] theorem sampleCount_cfg7In (s : State) : (cfg7In s).sampleCount = s.sampleCount := by simp [State.sampleCount, PinEvent.isSample]
@[simp] theorem sampleCount_cfg7Out (s : State) : (cfg7Out s).sampleCount = s.sampleCount := by simp [State.sampleCount, PinEvent.isSample]
@[simp] theorem sampleCount_ctl (a b : Bit) (s : State) : (ctl a b s).sampleCount = s.sampleCount := by simp [State.sampleCount, PinEvent.isSample]
@[simp] theorem sampleCount_eHi (s : State) : (eHi s).sampleCount = s.sampleCount := by simp [State.sampleCount, PinEvent.isSample]
@[simp] theorem sampleCount_dly (t : Nat) (s : State) : (dly t s).sampleCount = s.sampleCount := by simp [State.sampleCount, PinEvent.isSample]
@[simp] theorem sampleCount_eLo (o : Option Bit) (s : State) : (eLo o s).sampleCount = s.sampleCount := by simp [State.sampleCount, PinEvent.isSample]
@[simp] theorem sampleCount_dirAll (s : State) : (dirAll s).sampleCount = s.sampleCount := by simp [State.sampleCount, PinEvent.isSample]
@[simp] theorem sampleCount_dat8 (v : Byte) (s : State) : (dat8 v s).sampleCount = s.sampleCount := by simp [State.sampleCount, PinEvent.isSample]
@[simp] theorem sampleCount_dat4 (n : Nibble) (s : State) : (dat4 n s).sampleCount = s.sampleCount := by simp [State.sampleCount, PinEvent.isSample]
@[simp] theorem sampleCount_accept (w : CmdWord) (q : Seq) (s : State) : (accept w q s).sampleCount = s.sampleCount := by simp [State.sampleCount, PinEvent.isSample]
@[simp] theorem sampleCount_ret (s : State) : (ret s).sampleCount = s.sampleCount := by simp [State.sampleCount, PinEvent.isSample]
@[simp] theorem sampleCount_hostEnter (l : LifeCycle) (s : State) : (hostEnter l s).sampleCount = s.sampleCount := rfl
@[simp] theorem sampleCount_hostCall (op : PublicOp) (s : State) : (hostCall op s).sampleCount = s.sampleCount := rfl
@[simp] theorem sampleCount_withPort (rest : List HostAction) (s : State) : (s.withPort rest).sampleCount = s.sampleCount := rfl
@[simp] theorem sampleCount_resetSampled (s : State) : (s.resetSampled).sampleCount = s.sampleCount := rfl
@[simp] theorem sampleCount_smp (b : Bit) (s : State) : (smp b s).sampleCount = s.sampleCount + 1 := by
  simp [State.sampleCount, PinEvent.isSample]
@[simp] theorem sampleCount_takeReset (s : State) : (takeReset s).sampleCount = 0 := rfl

/-- The coming answers depend on the oracle and on the number of samples since reset, and on nothing else. -/
theorem answer_congr {s t : State} (ho : t.oracle = s.oracle) (hn : t.sampleCount = s.sampleCount) (j : Nat) :
    t.answer j = s.answer j := by
  simp only [State.answer, ho, hn]

@[simp] theorem answer_goto (q : Seq) (s : State) (j : Nat) : (State.goto s q).answer j = s.answer j := by
  simp only [State.answer, State.goto_oracle, sampleCount_goto]
@[simp] theorem answer_cfg7In (s : State) (j : Nat) : (cfg7In s).answer j = s.answer j := by
  simp only [State.answer, cfg7In_oracle, sampleCount_cfg7In]
@[simp] theorem answer_cfg7Out (s : State) (j : Nat) : (cfg7Out s).answer j = s.answer j := by
  simp only [State.answer, cfg7Out_oracle, sampleCount_cfg7Out]
@[simp] theorem answer_ctl (a b : Bit) (s : State) (j : Nat) : (ctl a b s).answer j = s.answer j := by
  simp only [State.answer, ctl_oracle, sampleCount_ctl]
@[simp] theorem answer_eHi (s : State) (j : Nat) : (eHi s).answer j = s.answer j := by
  simp only [State.answer, eHi_oracle, sampleCount_eHi]
@[simp] theorem answer_dly (t : Nat) (s : State) (j : Nat) : (dly t s).answer j = s.answer j := by
  simp only [State.answer, dly_oracle, sampleCount_dly]
@[simp] theorem answer_eLo (o : Option Bit) (s : State) (j : Nat) : (eLo o s).answer j = s.answer j := by
  simp only [State.answer, eLo_oracle, sampleCount_eLo]
@[simp] theorem answer_dirAll (s : State) (j : Nat) : (dirAll s).answer j = s.answer j := by
  simp only [State.answer, dirAll_oracle, sampleCount_dirAll]
@[simp] theorem answer_dat8 (v : Byte) (s : State) (j : Nat) : (dat8 v s).answer j = s.answer j := by
  simp only [State.answer, dat8_oracle, sampleCount_dat8]
@[simp] theorem answer_dat4 (n : Nibble) (s : State) (j : Nat) : (dat4 n s).answer j = s.answer j := by
  simp only [State.answer, dat4_oracle, sampleCount_dat4]
@[simp] theorem answer_accept (w : CmdWord) (q : Seq) (s : State) (j : Nat) : (accept w q s).answer j = s.answer j := by
  simp only [State.answer, accept_oracle, sampleCount_accept]
@[simp] theorem answer_ret (s : State) (j : Nat) : (ret s).answer j = s.answer j := by
  simp only [State.answer, ret_oracle, sampleCount_ret]
@[simp] theorem answer_hostEnter (l : LifeCycle) (s : State) (j : Nat) : (hostEnter l s).answer j = s.answer j := by
  simp only [State.answer, hostEnter_oracle, sampleCount_hostEnter]
@[simp] theorem answer_hostCall (op : PublicOp) (s : State) (j : Nat) : (hostCall op s).answer j = s.answer j := by
  simp only [State.answer, hostCall_oracle, sampleCount_hostCall]
@[simp] theorem answer_withPort (rest : List HostAction) (s : State) (j : Nat) : (s.withPort rest).answer j = s.answer j := by
  simp only [State.answer, State.withPort_oracle, sampleCount_withPort]
@[simp] theorem answer_resetSampled (s : State) (j : Nat) : (s.resetSampled).answer j = s.answer j := by
  simp only [State.answer, State.resetSampled_oracle, sampleCount_resetSampled]

/-- After a sample the next answer is the next in number. -/
theorem answer_smp (b : Bit) (s : State) (j : Nat) : (smp b s).answer j = s.answer (j + 1) := by
  simp only [State.answer, smp_oracle, sampleCount_smp]
  congr 1
  omega

/-- A reset starts the module's answers again with `Module(1)`. -/
theorem answer_takeReset (s : State) (j : Nat) : (takeReset s).answer j = s.oracle.answer (j + 1) := by
  rw [State.answer, sampleCount_takeReset, Nat.zero_add, Nat.add_comm 1 j]
  rfl

/-- The answers that are listed one by one. -/
theorem Oracle.answer_first {o : Oracle} {i : Nat} {b : Bit} (h : o.first[i]? = some b) : o.answer (i + 1) = b := by
  simp [Oracle.answer, h]

/-- A constant module. -/
theorem Oracle.answer_constant (b : Bit) (n : Nat) : Oracle.answer { first := [], rest := .cycle b [] } n = b := by
  simp [Oracle.answer, Nat.mod_one]

/-! ### Acceptance (40_bus_transport.md R120) -/

theorem ready_iff (s : State) : s.ready = true ↔ s.seq = .IDLE := by simp [State.ready]

theorem not_ready_iff (s : State) : s.ready = false ↔ s.seq ≠ .IDLE := by simp [State.ready]

theorem stillBusy_iff (s : State) : s.stillBusy = true ↔ s.bf = 1 := by simp [State.stillBusy]

/-- A ready block accepts. -/
theorem present_ready {s : State} (h : s.ready = true) (w : CmdWord) (first : Seq) :
    present w first s = .next (accept w first s) := by
  simp [present, h]

/-- A busy block holds the request off and goes on. -/
theorem present_busy {s : State} (h : s.ready = false) (w : CmdWord) (first : Seq) : present w first s = advance s := by
  simp [present, h]

end Sys2Proof.Machine
end

