-- ==== Sys2Proof/Laws/PerInstr.lean ====
section
/-! SUPPORT. One law per instruction, about the instruction as syntax: its word lies in its own row of
spec/opcode_table.json. -/

namespace Sys2Proof.Laws.OwnRow

/-- The word of a well-formed instruction fits the row of the opcode table that bears its mnemonic. -/
def Statement (i : Instr) : Prop :=
  i.wf = true → ∃ r ∈ opcodeRows, r.mnemonic = i.mnemonic ∧ r.fits (encode i) = true

theorem send (rs rw : Bit) (byte : Byte) : Statement (.send rs rw byte) := by
  intro h
  have h0 : rw = 0 := by simpa [Instr.wf] using h
  subst h0
  clear h
  refine ⟨⟨.SEND, 0xD00, 0x000⟩, by decide, rfl, ?_⟩
  revert rs byte
  set_option maxRecDepth 100000 in decide

theorem irwrite (byte : Byte) : Statement (.irwrite byte) := by
  intro _
  refine ⟨⟨.IRWRITE, 0xF00, 0x000⟩, by decide, rfl, ?_⟩
  revert byte
  set_option maxRecDepth 100000 in decide

theorem clear : Statement .clear := fun _ => by decide

theorem home : Statement .home := fun _ => by decide

theorem entry (direction : EntryDirection) (shift : AutoShift) : Statement (.entry direction shift) := fun _ => by
  cases direction <;> cases shift <;> decide

theorem dispctl (display : DisplayState) (cursor : CursorState) (blink : BlinkState) :
    Statement (.dispctl display cursor blink) := fun _ => by
  cases display <;> cases cursor <;> cases blink <;> decide

theorem shift (object : ShiftObject) (direction : ShiftDirection) : Statement (.shift object direction) := fun _ => by
  cases object <;> cases direction <;> decide

theorem funcset (width : BusMode) (lines : LineCount) : Statement (.funcset width lines) := fun _ => by
  cases width <;> cases lines <;> decide

theorem wrdata (byte : Byte) : Statement (.wrdata byte) := by
  intro _
  refine ⟨⟨.WRDATA, 0xF00, 0x200⟩, by decide, rfl, ?_⟩
  revert byte
  set_option maxRecDepth 100000 in decide

theorem rawnib (n : Nibble) : Statement (.rawnib n) := by
  intro _
  refine ⟨⟨.RAWNIB, 0xFF0, 0x400⟩, by decide, rfl, ?_⟩
  revert n
  decide

theorem poll : Statement .poll := fun _ => by decide

theorem reservedSendRead (rs : Bit) (byte : Byte) : Statement (.reservedSendRead rs byte) := by
  intro _
  refine ⟨⟨.RESERVED_SEND_READ, 0xD00, 0x100⟩, by decide, rfl, ?_⟩
  revert rs byte
  set_option maxRecDepth 100000 in decide

theorem reservedRawnibBits (reserved : BitVec 6) (n : Nibble) : Statement (.reservedRawnibBits reserved n) := by
  intro _
  refine ⟨⟨.RESERVED_RAWNIB_BITS, 0xC00, 0x400⟩, by decide, rfl, ?_⟩
  revert reserved n
  set_option maxRecDepth 100000 in decide

theorem reservedPollBits (reserved : BitVec 10) : Statement (.reservedPollBits reserved) := by
  intro _
  refine ⟨⟨.RESERVED_POLL_BITS, 0xC00, 0x800⟩, by decide, rfl, ?_⟩
  revert reserved
  set_option maxRecDepth 100000 in decide

theorem reservedOp (payload : BitVec 10) : Statement (.reservedOp payload) := by
  intro _
  refine ⟨⟨.RESERVED_OP, 0xC00, 0xC00⟩, by decide, rfl, ?_⟩
  revert payload
  set_option maxRecDepth 100000 in decide

end Sys2Proof.Laws.OwnRow
end

