-- ==== Sys2Proof/Laws/Sequencer.lean ====
section
/-! SUPPORT. The transition table of spec/40_bus_transport.md R118, one lemma per row: what `advance` does in each state. -/

namespace Sys2Proof.Machine

variable {s : State}

/-! A row does not ask which function the module is, but for the row of `P_SMP`. -/

theorem advanceWith_congr {f g : Nat → Bit} (h : s.seq = .P_SMP → f (s.sampleCount + 1) = g (s.sampleCount + 1)) :
    advanceWith f s = advanceWith g s := by
  cases hq : s.seq <;> simp [advanceWith, hq, h]

theorem advance_P_CFG (h : s.seq = .P_CFG) :
    advance s = .next ((cfg7In s).goto .P_CTRL) := by
  simp [advance, advanceWith, h]

theorem advance_P_CTRL (h : s.seq = .P_CTRL) :
    advance s = .next ((ctl 0 1 s).goto .P_EH) := by
  simp [advance, advanceWith, h]

theorem advance_P_EH (h : s.seq = .P_EH) :
    advance s = .next ((eHi s).goto .P_PW) := by
  simp [advance, advanceWith, h]

theorem advance_P_PW (h : s.seq = .P_PW) :
    advance s = .next ((dly s.params.tPW s).goto .P_SMP) := by
  simp [advance, advanceWith, h]

theorem advance_P_SMP (h : s.seq = .P_SMP) :
    advance s = .next ((smp (s.answer 0) s).goto .P_EL) := by
  simp [advance, advanceWith, h, State.answer]

theorem advance_P_EL_eight (h : s.seq = .P_EL) (hm : s.mode = .eightBit) :
    advance s = .next ((eLo (some s.bf) s).goto .P_TEST) := by
  simp [advance, advanceWith, h, hm]

theorem advance_P_EL_four (h : s.seq = .P_EL) (hm : s.mode = .fourBit) :
    advance s = .next ((eLo (some s.bf) s).goto .P_DEH) := by
  simp [advance, advanceWith, h, hm]

theorem advance_P_DEH (h : s.seq = .P_DEH) :
    advance s = .next ((eHi s).goto .P_DPW) := by
  simp [advance, advanceWith, h]

theorem advance_P_DPW (h : s.seq = .P_DPW) :
    advance s = .next ((dly s.params.tPW s).goto .P_DEL) := by
  simp [advance, advanceWith, h]

theorem advance_P_DEL (h : s.seq = .P_DEL) :
    advance s = .next ((eLo none s).goto .P_TEST) := by
  simp [advance, advanceWith, h]

theorem advance_P_TEST_busy (h : s.seq = .P_TEST) (hb : s.bf = 1) :
    advance s = .next (s.goto .P_EH) := by
  simp [advance, advanceWith, h, State.stillBusy, hb]

theorem advance_P_TEST_clear (h : s.seq = .P_TEST) (hb : s.bf = 0) :
    advance s = .next (s.goto .P_REST) := by
  simp [advance, advanceWith, h, State.stillBusy, hb]

theorem advance_P_REST_send (h : s.seq = .P_REST) (ho : s.op = 0) :
    advance s = .next ((cfg7Out s).goto .S_CTRL) := by
  simp [advance, advanceWith, h, ho]

theorem advance_P_REST_poll (h : s.seq = .P_REST) (ho : s.op = 2) :
    advance s = .next (ret (cfg7Out s)) := by
  simp [advance, advanceWith, h, ho]

theorem advance_S_CTRL_eight (h : s.seq = .S_CTRL) (hm : s.mode = .eightBit) :
    advance s = .next ((ctl s.crs s.crw s).goto .S_DIR) := by
  simp [advance, advanceWith, h, hm]

theorem advance_S_CTRL_four (h : s.seq = .S_CTRL) (hm : s.mode = .fourBit) :
    advance s = .next ((ctl s.crs s.crw s).goto .S_D0) := by
  simp [advance, advanceWith, h, hm]

theorem advance_S_DIR (h : s.seq = .S_DIR) :
    advance s = .next ((dirAll s).goto .S_D0) := by
  simp [advance, advanceWith, h]

theorem advance_S_D0_eight (h : s.seq = .S_D0) (hm : s.mode = .eightBit) :
    advance s = .next ((dat8 s.cdata s).goto .S_EH0) := by
  simp [advance, advanceWith, h, hm]

theorem advance_S_D0_four (h : s.seq = .S_D0) (hm : s.mode = .fourBit) :
    advance s = .next ((dat4 (highNibble s.cdata) s).goto .S_EH0) := by
  simp [advance, advanceWith, h, hm]

theorem advance_S_EH0 (h : s.seq = .S_EH0) :
    advance s = .next ((eHi s).goto .S_PW0) := by
  simp [advance, advanceWith, h]

theorem advance_S_PW0 (h : s.seq = .S_PW0) :
    advance s = .next ((dly s.params.tPW s).goto .S_EL0) := by
  simp [advance, advanceWith, h]

theorem advance_S_EL0_eight (h : s.seq = .S_EL0) (hm : s.mode = .eightBit) :
    advance s = .next (ret (eLo none s)) := by
  simp [advance, advanceWith, h, hm]

theorem advance_S_EL0_four (h : s.seq = .S_EL0) (hm : s.mode = .fourBit) :
    advance s = .next ((eLo none s).goto .S_D1) := by
  simp [advance, advanceWith, h, hm]

theorem advance_S_D1 (h : s.seq = .S_D1) :
    advance s = .next ((dat4 (lowNibble s.cdata) s).goto .S_EH1) := by
  simp [advance, advanceWith, h]

theorem advance_S_EH1 (h : s.seq = .S_EH1) :
    advance s = .next ((eHi s).goto .S_PW1) := by
  simp [advance, advanceWith, h]

theorem advance_S_PW1 (h : s.seq = .S_PW1) :
    advance s = .next ((dly s.params.tPW s).goto .S_EL1) := by
  simp [advance, advanceWith, h]

theorem advance_S_EL1 (h : s.seq = .S_EL1) :
    advance s = .next (ret (eLo none s)) := by
  simp [advance, advanceWith, h]

theorem advance_R_CTRL_eight (h : s.seq = .R_CTRL) (hm : s.mode = .eightBit) :
    advance s = .next ((ctl 0 0 s).goto .R_DIR) := by
  simp [advance, advanceWith, h, hm]

theorem advance_R_CTRL_four (h : s.seq = .R_CTRL) (hm : s.mode = .fourBit) :
    advance s = .next ((ctl 0 0 s).goto .R_D) := by
  simp [advance, advanceWith, h, hm]

theorem advance_R_DIR (h : s.seq = .R_DIR) :
    advance s = .next ((dirAll s).goto .R_D) := by
  simp [advance, advanceWith, h]

theorem advance_R_D_eight (h : s.seq = .R_D) (hm : s.mode = .eightBit) :
    advance s = .next ((dat8 (rawByte (lowNibble s.cdata)) s).goto .R_EH) := by
  simp [advance, advanceWith, h, hm]

theorem advance_R_D_four (h : s.seq = .R_D) (hm : s.mode = .fourBit) :
    advance s = .next ((dat4 (lowNibble s.cdata) s).goto .R_EH) := by
  simp [advance, advanceWith, h, hm]

theorem advance_R_EH (h : s.seq = .R_EH) :
    advance s = .next ((eHi s).goto .R_PW) := by
  simp [advance, advanceWith, h]

theorem advance_R_PW (h : s.seq = .R_PW) :
    advance s = .next ((dly s.params.tPW s).goto .R_EL) := by
  simp [advance, advanceWith, h]

theorem advance_R_EL (h : s.seq = .R_EL) :
    advance s = .next (ret (eLo none s)) := by
  simp [advance, advanceWith, h]

/-- `P_REST` has no successor for the other values of `OP`. -/
theorem advance_P_REST_mismatch (h : s.seq = .P_REST) (h0 : s.op ≠ 0) (h2 : s.op ≠ 2) :
    advance s = .fault .latchMismatch := by
  simp only [advance, advanceWith, h, if_neg h0, if_neg h2]

/-- `advance` faults at `P_REST` only, for an `OP` that neither sends nor polls; it never refuses. -/
theorem advance_next_or_fault (s : State) :
    (∃ t, advance s = .next t) ∨ (advance s = .fault .latchMismatch ∧ s.seq = .P_REST ∧ s.op ≠ 0 ∧ s.op ≠ 2) := by
  cases hq : s.seq
  case P_REST =>
    by_cases h0 : s.op = 0
    · exact .inl ⟨_, advance_P_REST_send hq h0⟩
    · by_cases h2 : s.op = 2
      · exact .inl ⟨_, advance_P_REST_poll hq h2⟩
      · exact .inr ⟨advance_P_REST_mismatch hq h0 h2, rfl, h0, h2⟩
  all_goals cases hm : s.mode <;> exact .inl (by simp [advance, advanceWith, hq, hm])

/-- The whole table as one inversion: if a row leads to `t`, it is one of these, with the condition the table puts on it. -/
theorem advance_elim {t : State} {motive : Prop} (h : advance s = .next t)
    (IDLE : s.seq = .IDLE → t = s → motive)
    (P_CFG : s.seq = .P_CFG → t = (cfg7In s).goto .P_CTRL → motive)
    (P_CTRL : s.seq = .P_CTRL → t = (ctl 0 1 s).goto .P_EH → motive)
    (P_EH : s.seq = .P_EH → t = (eHi s).goto .P_PW → motive)
    (P_PW : s.seq = .P_PW → t = (dly s.params.tPW s).goto .P_SMP → motive)
    (P_SMP : s.seq = .P_SMP → t = (smp (s.answer 0) s).goto .P_EL → motive)
    (P_EL_eight : s.seq = .P_EL → s.mode = .eightBit → t = (eLo (some s.bf) s).goto .P_TEST → motive)
    (P_EL_four : s.seq = .P_EL → s.mode = .fourBit → t = (eLo (some s.bf) s).goto .P_DEH → motive)
    (P_DEH : s.seq = .P_DEH → t = (eHi s).goto .P_DPW → motive)
    (P_DPW : s.seq = .P_DPW → t = (dly s.params.tPW s).goto .P_DEL → motive)
    (P_DEL : s.seq = .P_DEL → t = (eLo none s).goto .P_TEST → motive)
    (P_TEST_busy : s.seq = .P_TEST → s.bf = 1 → t = s.goto .P_EH → motive)
    (P_TEST_clear : s.seq = .P_TEST → s.bf = 0 → t = s.goto .P_REST → motive)
    (P_REST_send : s.seq = .P_REST → s.op = 0 → t = (cfg7Out s).goto .S_CTRL → motive)
    (P_REST_poll : s.seq = .P_REST → s.op = 2 → t = ret (cfg7Out s) → motive)
    (S_CTRL_eight : s.seq = .S_CTRL → s.mode = .eightBit → t = (ctl s.crs s.crw s).goto .S_DIR → motive)
    (S_CTRL_four : s.seq = .S_CTRL → s.mode = .fourBit → t = (ctl s.crs s.crw s).goto .S_D0 → motive)
    (S_DIR : s.seq = .S_DIR → t = (dirAll s).goto .S_D0 → motive)
    (S_D0_eight : s.seq = .S_D0 → s.mode = .eightBit → t = (dat8 s.cdata s).goto .S_EH0 → motive)
    (S_D0_four : s.seq = .S_D0 → s.mode = .fourBit → t = (dat4 (highNibble s.cdata) s).goto .S_EH0 → motive)
    (S_EH0 : s.seq = .S_EH0 → t = (eHi s).goto .S_PW0 → motive)
    (S_PW0 : s.seq = .S_PW0 → t = (dly s.params.tPW s).goto .S_EL0 → motive)
    (S_EL0_eight : s.seq = .S_EL0 → s.mode = .eightBit → t = ret (eLo none s) → motive)
    (S_EL0_four : s.seq = .S_EL0 → s.mode = .fourBit → t = (eLo none s).goto .S_D1 → motive)
    (S_D1 : s.seq = .S_D1 → t = (dat4 (lowNibble s.cdata) s).goto .S_EH1 → motive)
    (S_EH1 : s.seq = .S_EH1 → t = (eHi s).goto .S_PW1 → motive)
    (S_PW1 : s.seq = .S_PW1 → t = (dly s.params.tPW s).goto .S_EL1 → motive)
    (S_EL1 : s.seq = .S_EL1 → t = ret (eLo none s) → motive)
    (R_CTRL_eight : s.seq = .R_CTRL → s.mode = .eightBit → t = (ctl 0 0 s).goto .R_DIR → motive)
    (R_CTRL_four : s.seq = .R_CTRL → s.mode = .fourBit → t = (ctl 0 0 s).goto .R_D → motive)
    (R_DIR : s.seq = .R_DIR → t = (dirAll s).goto .R_D → motive)
    (R_D_eight : s.seq = .R_D → s.mode = .eightBit → t = (dat8 (rawByte (lowNibble s.cdata)) s).goto .R_EH → motive)
    (R_D_four : s.seq = .R_D → s.mode = .fourBit → t = (dat4 (lowNibble s.cdata) s).goto .R_EH → motive)
    (R_EH : s.seq = .R_EH → t = (eHi s).goto .R_PW → motive)
    (R_PW : s.seq = .R_PW → t = (dly s.params.tPW s).goto .R_EL → motive)
    (R_EL : s.seq = .R_EL → t = ret (eLo none s) → motive) : motive := by
  cases hq : s.seq
  case IDLE =>
    simp only [advance, advanceWith, hq, Host.Outcome.next.injEq] at h
    exact IDLE hq h.symm
  case P_CFG =>
    rw [advance_P_CFG hq, Host.Outcome.next.injEq] at h
    exact P_CFG hq h.symm
  case P_CTRL =>
    rw [advance_P_CTRL hq, Host.Outcome.next.injEq] at h
    exact P_CTRL hq h.symm
  case P_EH =>
    rw [advance_P_EH hq, Host.Outcome.next.injEq] at h
    exact P_EH hq h.symm
  case P_PW =>
    rw [advance_P_PW hq, Host.Outcome.next.injEq] at h
    exact P_PW hq h.symm
  case P_SMP =>
    rw [advance_P_SMP hq, Host.Outcome.next.injEq] at h
    exact P_SMP hq h.symm
  case P_EL =>
    cases hm : s.mode
    · rw [advance_P_EL_eight hq hm, Host.Outcome.next.injEq] at h
      exact P_EL_eight hq hm h.symm
    · rw [advance_P_EL_four hq hm, Host.Outcome.next.injEq] at h
      exact P_EL_four hq hm h.symm
  case P_DEH =>
    rw [advance_P_DEH hq, Host.Outcome.next.injEq] at h
    exact P_DEH hq h.symm
  case P_DPW =>
    rw [advance_P_DPW hq, Host.Outcome.next.injEq] at h
    exact P_DPW hq h.symm
  case P_DEL =>
    rw [advance_P_DEL hq, Host.Outcome.next.injEq] at h
    exact P_DEL hq h.symm
  case P_TEST =>
    rcases Bit.eq_zero_or_one s.bf with hb | hb
    · rw [advance_P_TEST_clear hq hb, Host.Outcome.next.injEq] at h
      exact P_TEST_clear hq hb h.symm
    · rw [advance_P_TEST_busy hq hb, Host.Outcome.next.injEq] at h
      exact P_TEST_busy hq hb h.symm
  case P_REST =>
    by_cases h0 : s.op = 0
    · rw [advance_P_REST_send hq h0, Host.Outcome.next.injEq] at h
      exact P_REST_send hq h0 h.symm
    · by_cases h2 : s.op = 2
      · rw [advance_P_REST_poll hq h2, Host.Outcome.next.injEq] at h
        exact P_REST_poll hq h2 h.symm
      · rw [advance_P_REST_mismatch hq h0 h2] at h
        cases h
  case S_CTRL =>
    cases hm : s.mode
    · rw [advance_S_CTRL_eight hq hm, Host.Outcome.next.injEq] at h
      exact S_CTRL_eight hq hm h.symm
    · rw [advance_S_CTRL_four hq hm, Host.Outcome.next.injEq] at h
      exact S_CTRL_four hq hm h.symm
  case S_DIR =>
    rw [advance_S_DIR hq, Host.Outcome.next.injEq] at h
    exact S_DIR hq h.symm
  case S_D0 =>
    cases hm : s.mode
    · rw [advance_S_D0_eight hq hm, Host.Outcome.next.injEq] at h
      exact S_D0_eight hq hm h.symm
    · rw [advance_S_D0_four hq hm, Host.Outcome.next.injEq] at h
      exact S_D0_four hq hm h.symm
  case S_EH0 =>
    rw [advance_S_EH0 hq, Host.Outcome.next.injEq] at h
    exact S_EH0 hq h.symm
  case S_PW0 =>
    rw [advance_S_PW0 hq, Host.Outcome.next.injEq] at h
    exact S_PW0 hq h.symm
  case S_EL0 =>
    cases hm : s.mode
    · rw [advance_S_EL0_eight hq hm, Host.Outcome.next.injEq] at h
      exact S_EL0_eight hq hm h.symm
    · rw [advance_S_EL0_four hq hm, Host.Outcome.next.injEq] at h
      exact S_EL0_four hq hm h.symm
  case S_D1 =>
    rw [advance_S_D1 hq, Host.Outcome.next.injEq] at h
    exact S_D1 hq h.symm
  case S_EH1 =>
    rw [advance_S_EH1 hq, Host.Outcome.next.injEq] at h
    exact S_EH1 hq h.symm
  case S_PW1 =>
    rw [advance_S_PW1 hq, Host.Outcome.next.injEq] at h
    exact S_PW1 hq h.symm
  case S_EL1 =>
    rw [advance_S_EL1 hq, Host.Outcome.next.injEq] at h
    exact S_EL1 hq h.symm
  case R_CTRL =>
    cases hm : s.mode
    · rw [advance_R_CTRL_eight hq hm, Host.Outcome.next.injEq] at h
      exact R_CTRL_eight hq hm h.symm
    · rw [advance_R_CTRL_four hq hm, Host.Outcome.next.injEq] at h
      exact R_CTRL_four hq hm h.symm
  case R_DIR =>
    rw [advance_R_DIR hq, Host.Outcome.next.injEq] at h
    exact R_DIR hq h.symm
  case R_D =>
    cases hm : s.mode
    · rw [advance_R_D_eight hq hm, Host.Outcome.next.injEq] at h
      exact R_D_eight hq hm h.symm
    · rw [advance_R_D_four hq hm, Host.Outcome.next.injEq] at h
      exact R_D_four hq hm h.symm
  case R_EH =>
    rw [advance_R_EH hq, Host.Outcome.next.injEq] at h
    exact R_EH hq h.symm
  case R_PW =>
    rw [advance_R_PW hq, Host.Outcome.next.injEq] at h
    exact R_PW hq h.symm
  case R_EL =>
    rw [advance_R_EL hq, Host.Outcome.next.injEq] at h
    exact R_EL hq h.symm

end Sys2Proof.Machine
end

