-- ==== Sys2Proof/Laws/Step.lean ====
section
/-! SUPPORT. What a step can do, said once, and how runs are put together from steps. -/

namespace Sys2Proof.Machine

variable {s t : State}

/-! ### The cases of a step (60_exceptions.md R194) -/

/-- A step with the module the state holds is a step with that module's answers. -/
theorem step_eq_stepWith (s : State) : step s = stepWith s.oracle.answer s := rfl

/-- Two modules that answer the coming sample alike lead to the same step. -/
theorem stepWith_congr {f g : Nat → Bit} (h : s.seq = .P_SMP → f (s.sampleCount + 1) = g (s.sampleCount + 1)) :
    stepWith f s = stepWith g s := by
  simp only [stepWith, runBlockWith, advanceWith_congr (s := s.resetSampled) (f := f) (g := g) (by simpa using h)]

theorem step_reset (h : s.resetAsserted = true) : step s = .next (takeReset s.resetSampled) := by
  simp [step, stepWith, h]

theorem step_busy (h : s.resetAsserted = false) (hq : s.seq ≠ .IDLE) : step s = advance s.resetSampled := by
  simp [step, stepWith, h, runBlockWith, State.ready, hq, advance]

theorem step_ready (h : s.resetAsserted = false) (hq : s.seq = .IDLE) : step s = serveHost s.resetSampled := by
  simp [step, stepWith, h, runBlockWith, State.ready, hq]

theorem serveHost_nothing (h : s.port = []) : serveHost s = .next s := by
  simp [serveHost, takeRequest, h]

theorem serveHost_command {w : CmdWord} {rest : List HostAction} (h : s.port = .command w :: rest) :
    serveHost s = exec (decode w) (s.withPort rest) := by
  simp [serveHost, takeRequest, h]

theorem serveHost_delay {d : Nat} {rest : List HostAction} (h : s.port = .delay d :: rest) :
    serveHost s = .next (hostDelay d (s.withPort rest)) := by
  simp [serveHost, takeRequest, h]

theorem serveHost_enter {l : LifeCycle} {rest : List HostAction} (h : s.port = .enter l :: rest) :
    serveHost s = .next (hostEnter l (s.withPort rest)) := by
  simp [serveHost, takeRequest, h]

theorem serveHost_call {op : PublicOp} {rest : List HostAction} (h : s.port = .call op :: rest) :
    serveHost s = .next (hostCall op (s.withPort rest)) := by
  simp [serveHost, takeRequest, h]

/-- With the reset input low for good, sampling it changes nothing. -/
theorem resetSampled_of_nil (h : s.resetIn = []) : s.resetSampled = s := by
  cases s
  simp_all [State.resetSampled]

theorem resetAsserted_of_nil (h : s.resetIn = []) : s.resetAsserted = false := by
  simp [State.resetAsserted, h]

/-- A busy block with the reset input low for good takes the next row of the table. -/
theorem step_advance (h : s.resetIn = []) (hq : s.seq ≠ .IDLE) : step s = advance s := by
  rw [step_busy (resetAsserted_of_nil h) hq, resetSampled_of_nil h]

/-- Everything a step can do when it answers a next state. -/
theorem step_next_cases (h : step s = .next t) :
    (s.resetAsserted = true ∧ t = takeReset s.resetSampled) ∨
    (s.resetAsserted = false ∧ s.seq ≠ .IDLE ∧ advance s.resetSampled = .next t) ∨
    (s.resetAsserted = false ∧ s.seq = .IDLE ∧ s.port = [] ∧ t = s.resetSampled) ∨
    (s.resetAsserted = false ∧ s.seq = .IDLE ∧ ∃ rest d, s.port = .delay d :: rest ∧
      t = hostDelay d (s.resetSampled.withPort rest)) ∨
    (s.resetAsserted = false ∧ s.seq = .IDLE ∧ ∃ rest l, s.port = .enter l :: rest ∧
      t = hostEnter l (s.resetSampled.withPort rest)) ∨
    (s.resetAsserted = false ∧ s.seq = .IDLE ∧ ∃ rest op, s.port = .call op :: rest ∧
      t = hostCall op (s.resetSampled.withPort rest)) ∨
    (s.resetAsserted = false ∧ s.seq = .IDLE ∧ ∃ rest w, s.port = .command w :: rest ∧
      exec (decode w) (s.resetSampled.withPort rest) = .next t) := by
  cases hr : s.resetAsserted
  case true =>
    rw [step_reset hr] at h
    cases h
    simp
  case false =>
    by_cases hq : s.seq = .IDLE
    case neg =>
      rw [step_busy hr hq] at h
      simp [hq, h]
    case pos =>
      rw [step_ready hr hq] at h
      have hs : s.resetSampled.port = s.port := rfl
      rcases hp : s.port with _ | ⟨w | d | l | op, rest⟩
      · rw [serveHost_nothing (hs.trans hp)] at h
        cases h
        simp [hq]
      · rw [serveHost_command (hs.trans hp)] at h
        exact .inr (.inr (.inr (.inr (.inr (.inr ⟨rfl, hq, rest, w, rfl, h⟩)))))
      · rw [serveHost_delay (hs.trans hp)] at h
        cases h
        simp [hq]
      · rw [serveHost_enter (hs.trans hp)] at h
        cases h
        simp [hq]
      · rw [serveHost_call (hs.trans hp)] at h
        cases h
        simp [hq]

/-! ### Runs -/

@[simp] theorem runSteps_zero (s : State) : runSteps 0 s = .next s := rfl

theorem runSteps_of_step {k : Nat} (h : step s = .next t) : runSteps (k + 1) s = runSteps k t := by
  simp only [runSteps, h]

/-- `runSteps` is the host's run of the machine. -/
theorem runSteps_eq_core_run (k : Nat) (s : State) : runSteps k s = Sys2Proof.core.run k s := by
  induction k generalizing s with
  | zero => rfl
  | succ k ih =>
    simp only [Host.Core.run]
    cases hs : step s with
    | next s' =>
      have h' : Sys2Proof.core.step s = .next s' := hs
      rw [runSteps_of_step hs, h']
      exact ih s'
    | fault r =>
      have h' : Sys2Proof.core.step s = .fault r := hs
      rw [h']
      simp only [runSteps, hs]
      rfl
    | refused r =>
      have h' : Sys2Proof.core.step s = .refused r := hs
      rw [h']
      simp only [runSteps, hs]
      rfl

/-- The first step of a run that comes to a next state. -/
theorem runSteps_succ_cases {k : Nat} (h : runSteps (k + 1) s = .next t) :
    ∃ s', step s = .next s' ∧ runSteps k s' = .next t := by
  cases hs : step s with
  | next s' => exact ⟨s', rfl, by rw [← h, runSteps_of_step hs]⟩
  | fault r => simp [runSteps, hs] at h
  | refused r => simp [runSteps, hs] at h

/-- A run goes on where a first part of it has come to. -/
theorem runSteps_add_of_next {m n : Nat} (h : runSteps m s = .next t) : runSteps (m + n) s = runSteps n t := by
  induction m generalizing s with
  | zero =>
    cases h
    rw [Nat.zero_add]
  | succ m ih =>
    obtain ⟨s', hs, hr⟩ := runSteps_succ_cases h
    rw [Nat.add_right_comm, runSteps_of_step hs]
    exact ih hr

/-- One row of the table inside a run. -/
theorem runSteps_of_advance {k : Nat} (h : s.resetIn = []) (hq : s.seq ≠ .IDLE) (ha : advance s = .next t) :
    runSteps (k + 1) s = runSteps k t :=
  runSteps_of_step ((step_advance h hq).trans ha)

/-- A property that every step keeps holds at the end of every run that comes to a next state. -/
theorem runSteps_keeps {P : State → Prop} (keep : ∀ {s t}, P s → step s = .next t → P t) {k : Nat} (hs : P s)
    (h : runSteps k s = .next t) : P t := by
  induction k generalizing s with
  | zero =>
    cases h
    exact hs
  | succ k ih =>
    obtain ⟨s', hst, hr⟩ := runSteps_succ_cases h
    exact ih (keep hs hst) hr

/-- The first step of a run with a given module. -/
theorem runWith_of_stepWith {f : Nat → Bit} {k : Nat} (h : stepWith f s = .next t) :
    runWith f (k + 1) s = runWith f k t := by
  simp only [runWith, h]

/-! ### What the meanings are, in terms of the shared operations -/

theorem exec_send (rs : Bit) (byte : Byte) (s : State) :
    exec (.send rs 0 byte) s = present (sendWord rs 0 byte) .P_CFG s := by
  simp [exec, execSend]

theorem exec_send_read (rs : Bit) (byte : Byte) (s : State) : exec (.send rs 1 byte) s = .refused .sendRead := by
  simp [exec, execSend]

theorem exec_rawnib (n : Nibble) (s : State) : exec (.rawnib n) s = present (rawnibWord n) .R_CTRL s := rfl

theorem exec_poll (s : State) : exec .poll s = present pollWord .P_CFG s := rfl

theorem execSend_next {rs rw : Bit} {byte : Byte} (h : execSend rs rw byte s = .next t) :
    rw = 0 ∧ present (sendWord rs 0 byte) .P_CFG s = .next t := by
  rcases Bit.eq_zero_or_one rw with rfl | rfl
  · exact ⟨rfl, by simpa [execSend] using h⟩
  · simp [execSend] at h

/-- Whatever instruction it is, `exec` answering a next state has presented one of three kinds of word. -/
theorem exec_next_cases {i : Instr} (h : exec i s = .next t) :
    (∃ rs byte, present (sendWord rs 0 byte) .P_CFG s = .next t) ∨
    (∃ n, present (rawnibWord n) .R_CTRL s = .next t) ∨ present pollWord .P_CFG s = .next t := by
  cases i with
  | send rs rw byte => exact .inl ⟨rs, byte, (execSend_next h).2⟩
  | irwrite byte => exact .inl ⟨0, byte, (execSend_next (rs := 0) (rw := 0) (byte := byte) h).2⟩
  | clear => exact .inl ⟨0, clearByte, (execSend_next (rs := 0) (rw := 0) (byte := clearByte) h).2⟩
  | home => exact .inl ⟨0, homeByte, (execSend_next (rs := 0) (rw := 0) (byte := homeByte) h).2⟩
  | entry d sh => exact .inl ⟨0, entryByte d sh, (execSend_next (rs := 0) (rw := 0) (byte := entryByte d sh) h).2⟩
  | dispctl d c k => exact .inl ⟨0, dispctlByte d c k, (execSend_next (rs := 0) (rw := 0) (byte := dispctlByte d c k) h).2⟩
  | shift o d => exact .inl ⟨0, shiftByte o d, (execSend_next (rs := 0) (rw := 0) (byte := shiftByte o d) h).2⟩
  | funcset w l => exact .inl ⟨0, funcsetByte w l, (execSend_next (rs := 0) (rw := 0) (byte := funcsetByte w l) h).2⟩
  | wrdata byte => exact .inl ⟨1, byte, (execSend_next (rs := 1) (rw := 0) (byte := byte) h).2⟩
  | rawnib n => exact .inr (.inl ⟨n, h⟩)
  | poll => exact .inr (.inr h)
  | reservedSendRead => cases h
  | reservedRawnibBits => cases h
  | reservedPollBits => cases h
  | reservedOp => cases h

/-- On a ready block a next state of `exec` is an acceptance. -/
theorem exec_next_of_ready {i : Instr} (hr : s.ready = true) (h : exec i s = .next t) :
    (∃ rs byte, t = accept (sendWord rs 0 byte) .P_CFG s) ∨ (∃ n, t = accept (rawnibWord n) .R_CTRL s) ∨
    t = accept pollWord .P_CFG s := by
  have := exec_next_cases h
  simpa only [present_ready hr, Host.Outcome.next.injEq, eq_comm] using this

/-- On a busy block a next state of `exec` is the next row of the command in progress. -/
theorem exec_next_of_busy {i : Instr} (hr : s.ready = false) (h : exec i s = .next t) : advance s = .next t := by
  have := exec_next_cases h
  simpa only [present_busy hr, exists_const, or_self] using this

/-! ### The module is not the block's to change (20_memory.md R72) -/

/-- A row of the table leaves the oracle as it is and takes at most one sample. -/
theorem advance_keeps_oracle (h : advance s = .next t) :
    t.oracle = s.oracle ∧ t.sampleCount ≤ s.sampleCount + 1 := by
  apply advance_elim h <;> intros <;> subst_vars <;> simp

/-- So does a step, whatever it is. -/
theorem step_keeps_oracle (h : step s = .next t) : t.oracle = s.oracle ∧ t.sampleCount ≤ s.sampleCount + 1 := by
  rcases step_next_cases h with ⟨_, rfl⟩ | ⟨_, _, ha⟩ | ⟨_, _, _, rfl⟩ | ⟨_, _, _, _, _, rfl⟩ | ⟨_, _, _, _, _, rfl⟩ |
    ⟨_, _, _, _, _, rfl⟩ | ⟨_, hq, _, _, _, he⟩
  case inl => exact ⟨rfl, Nat.zero_le _⟩
  case inr.inl => simpa using advance_keeps_oracle ha
  case inr.inr.inr.inr.inr.inr =>
    rcases exec_next_of_ready (by simp [State.ready, hq]) he with ⟨_, _, rfl⟩ | ⟨_, rfl⟩ | rfl <;> simp
  all_goals simp [hostDelay]

end Sys2Proof.Machine
end

