-- ==== Sys2Proof/Laws/Run.lean ====
section
/-! SUPPORT. Runs of the poll's loop (spec/40_bus_transport.md R112) through the transition table, and what the invariant
depends on. -/

namespace Sys2Proof.Machine

variable {s t : State}

/-! ### One turn of the poll's loop -/

@[simp] theorem pollIteration_op (s : State) : (pollIteration s).op = s.op := by
  cases hm : s.mode <;> simp [pollIteration, hm, pulse, pulseSample]
@[simp] theorem pollIteration_crs (s : State) : (pollIteration s).crs = s.crs := by
  cases hm : s.mode <;> simp [pollIteration, hm, pulse, pulseSample]
@[simp] theorem pollIteration_crw (s : State) : (pollIteration s).crw = s.crw := by
  cases hm : s.mode <;> simp [pollIteration, hm, pulse, pulseSample]
@[simp] theorem pollIteration_cdata (s : State) : (pollIteration s).cdata = s.cdata := by
  cases hm : s.mode <;> simp [pollIteration, hm, pulse, pulseSample]
@[simp] theorem pollIteration_params (s : State) : (pollIteration s).params = s.params := by
  cases hm : s.mode <;> simp [pollIteration, hm, pulse, pulseSample]
@[simp] theorem pollIteration_resetIn (s : State) : (pollIteration s).resetIn = s.resetIn := by
  cases hm : s.mode <;> simp [pollIteration, hm, pulse, pulseSample]
@[simp] theorem pollIteration_oracle (s : State) : (pollIteration s).oracle = s.oracle := by
  cases hm : s.mode <;> simp [pollIteration, hm, pulse, pulseSample]
@[simp] theorem pollIteration_port (s : State) : (pollIteration s).port = s.port := by
  cases hm : s.mode <;> simp [pollIteration, hm, pulse, pulseSample]
@[simp] theorem pollIteration_life (s : State) : (pollIteration s).life = s.life := by
  cases hm : s.mode <;> simp [pollIteration, hm, pulse, pulseSample]
@[simp] theorem pollIteration_draws (s : State) : (pollIteration s).draws = s.draws := by
  cases hm : s.mode <;> simp [pollIteration, hm, pulse, pulseSample]
@[simp] theorem pollIteration_sampleCount (s : State) : (pollIteration s).sampleCount = s.sampleCount + 1 := by
  cases hm : s.mode <;> simp [pollIteration, hm, pulse, pulseSample]
@[simp] theorem pollIteration_bf (s : State) : (pollIteration s).bf = s.answer 0 := by
  cases hm : s.mode <;> simp [pollIteration, hm, pulse, pulseSample]

/-- A turn takes one answer of the module. -/
theorem answer_pollIteration (s : State) (j : Nat) : (pollIteration s).answer j = s.answer (j + 1) := by
  simp only [State.answer, pollIteration_oracle, pollIteration_sampleCount]
  congr 1
  omega

/-- The turn does not depend on `SEQ`. -/
theorem pollIteration_goto (s : State) (q : Seq) : pollIteration (s.goto q) = (pollIteration s).goto q := by
  cases hm : s.mode <;> simp [pollIteration, hm, pulse, pulseSample]

/-- The rows of R118 from `P_EH` to the test are one turn of the loop. -/
theorem runSteps_pollIteration (hq : s.seq = .P_EH) (hr : s.resetIn = []) (k : Nat) :
    runSteps (iterationSteps s.mode + k) s =
      runSteps k ((pollIteration s).goto (if (pollIteration s).stillBusy then .P_EH else .P_REST)) := by
  cases hm : s.mode
  case eightBit =>
    rw [show iterationSteps BusMode.eightBit + k = k + 1 + 1 + 1 + 1 + 1 by simp [iterationSteps]; omega]
    refine (runSteps_of_advance hr (by rw [hq]; decide) (advance_P_EH hq)).trans ?_
    refine (runSteps_of_advance (by simpa using hr) (by simp) (advance_P_PW (by simp))).trans ?_
    refine (runSteps_of_advance (by simpa using hr) (by simp) (advance_P_SMP (by simp))).trans ?_
    refine (runSteps_of_advance (by simpa using hr) (by simp) (advance_P_EL_eight (by simp) (by simpa using hm))).trans ?_
    refine (runSteps_of_advance (by simpa using hr) (by simp) rfl).trans ?_
    simp [pollIteration, hm, pulseSample, State.stillBusy]
  case fourBit =>
    rw [show iterationSteps BusMode.fourBit + k = k + 1 + 1 + 1 + 1 + 1 + 1 + 1 + 1 by simp [iterationSteps]; omega]
    refine (runSteps_of_advance hr (by rw [hq]; decide) (advance_P_EH hq)).trans ?_
    refine (runSteps_of_advance (by simpa using hr) (by simp) (advance_P_PW (by simp))).trans ?_
    refine (runSteps_of_advance (by simpa using hr) (by simp) (advance_P_SMP (by simp))).trans ?_
    refine (runSteps_of_advance (by simpa using hr) (by simp) (advance_P_EL_four (by simp) (by simpa using hm))).trans ?_
    refine (runSteps_of_advance (by simpa using hr) (by simp) (advance_P_DEH (by simp))).trans ?_
    refine (runSteps_of_advance (by simpa using hr) (by simp) (advance_P_DPW (by simp))).trans ?_
    refine (runSteps_of_advance (by simpa using hr) (by simp) (advance_P_DEL (by simp))).trans ?_
    refine (runSteps_of_advance (by simpa using hr) (by simp) rfl).trans ?_
    simp [pollIteration, hm, pulse, pulseSample, State.stillBusy]

/-! ### What the invariant looks at -/

/-- The invariant looks at the block's own elements and at `MODE` only. -/
theorem Inv_congr (hI : s.Inv) (hop : t.op = s.op) (hcrs : t.crs = s.crs) (hcrw : t.crw = s.crw) (hdout : t.dout = s.dout)
    (hddir : t.ddir = s.ddir) (hdpue : t.dpue = s.dpue) (hrs : t.rs = s.rs) (hrw : t.rw = s.rw) (he : t.e = s.e)
    (hbf : t.bf = s.bf) (hseq : t.seq = s.seq) (hparams : t.params = s.params) : t.Inv := by
  obtain ⟨h1, h2, h3, h4, h5, h6, h7, h8, h9, h10, h11, h12, h13⟩ := hI
  constructor <;> simp only [State.mode, *] <;> assumption

/-- A ready block that accepts a word it has a meaning for keeps the invariant. -/
theorem Inv_accept {w : CmdWord} {first : Seq} (hI : s.Inv) (hr : s.ready = true)
    (hw : ((opField w = 0 ∧ rwField w = 0 ∨ opField w = 2) ∧ first = .P_CFG) ∨ (opField w = 1 ∧ first = .R_CTRL)) :
    (accept w first s).Inv := by
  rw [ready_iff] at hr
  have hbf := hI.flagClear (by rw [hr]; rfl)
  have := hI.enable
  have := hI.direction
  have := hI.pullUp
  have := hI.lowLines
  rcases hw with ⟨hw, rfl⟩ | ⟨hw, rfl⟩ <;>
    constructor <;>
      simp_all [Seq.inPulse, Seq.lineIn, Seq.reading, Seq.sampling, Seq.group, Seq.eightOnly, Seq.fourOnly]

end Sys2Proof.Machine
end

