-- ==== Sys2Proof/Tests/Slice0.lean ====
section
/-! SUPPORT. Tests. Expected results come from spec/95_test_vectors.md (V<n>, X<n>, P<n>), from spec/30_encoding.md R86, or
are worked out by hand from the rules named. At the end a witness for the hypotheses of every obligation that has some. -/

open Sys2Proof Sys2Proof.Machine

namespace Sys2Proof.Tests

/-! ### States to start from -/

/-- Right after reset, in mode `m`, the module idle. -/
def fresh (m : BusMode) : State :=
  { State.resetOf { Params.atReset with mode := m } with oracle := { first := [], rest := .cycle 0 [] } }

/-- In the poll of a command with `OP = op`, at `q`, outside a pulse. -/
def polling (m : BusMode) (op : BitVec 2) (q : Seq) : State :=
  { fresh m with op := op, crs := 1, cdata := 0xA5, seq := q, rw := 1, ddir := 0x7F, dpue := 0x80, aux := 1 }

/-- In the transfer of `SEND 1, 0, 0xA5`, at `q`, outside a pulse. -/
def sending (m : BusMode) (q : Seq) : State :=
  { fresh m with crs := 1, cdata := 0xA5, seq := q, rs := 1 }

/-- In a `RAWNIB 0b0011`, at `q`. -/
def rawing (m : BusMode) (q : Seq) : State := { fresh m with op := 1, cdata := 0x03, seq := q }

/-- The next state an outcome answers, if it answers one. -/
def next? : Host.Outcome State Fault Refusal → Option State
  | .next t => some t
  | .fault _ => none
  | .refused _ => none

/-- The refusal an outcome answers, if it answers one. -/
def refusal? : Host.Outcome State Fault Refusal → Option Refusal
  | .next _ => none
  | .fault _ => none
  | .refused r => some r

/-! ### Well-formedness: an ill-formed term for each check -/

theorem test_wf_send_read : (Instr.send 0 1 0x00).wf = false := by decide
theorem test_wf_irwrite_named : (Instr.irwrite 0x01).wf = false ∧ (Instr.irwrite 0x3F).wf = true := by decide
theorem test_wf_irwrite_families :
    [0x02, 0x04, 0x07, 0x08, 0x0F, 0x10, 0x1C, 0x20, 0x38].all (fun b => !(Instr.irwrite b).wf) = true := by decide
theorem test_wf_rawnib_bits : (Instr.reservedRawnibBits 0 3).wf = false := by decide
theorem test_wf_poll_bits : (Instr.reservedPollBits 0).wf = false := by decide

/-! ### Decoding: words written out from 30_encoding.md R82, R86, bit by bit -/

theorem test_decode_irwrite : decode 0b0000_0000_0011 = .irwrite 0x03 ∧ decode 0b0000_0001_0001 = .irwrite 0x11 ∧
    decode 0b0000_0010_0100 = .irwrite 0x24 ∧ decode 0b0000_0100_0000 = .irwrite 0x40 := by decide
theorem test_decode_clear_home : decode 0b0000_0000_0001 = .clear ∧ decode 0b0000_0000_0010 = .home := by decide
theorem test_decode_entry :
    decode 0b0000_0000_0101 = .entry .left .on ∧ decode 0b0000_0000_0110 = .entry .right .off := by decide
theorem test_decode_dispctl : decode 0b0000_0000_1100 = .dispctl .on .off .off ∧
    decode 0b0000_0000_1010 = .dispctl .off .on .off ∧ decode 0b0000_0000_1001 = .dispctl .off .off .on := by decide
theorem test_decode_shift :
    decode 0b0000_0001_1000 = .shift .display .left ∧ decode 0b0000_0001_0100 = .shift .cursor .right := by decide
theorem test_decode_funcset : decode 0b0000_0010_1000 = .funcset .fourBit .two ∧
    decode 0b0000_0011_0000 = .funcset .eightBit .single := by decide
theorem test_decode_wrdata : decode 0b0010_0100_0001 = .wrdata 0x41 ∧ decode 0b0010_0000_0001 = .wrdata 0x01 := by decide
theorem test_decode_rawnib_poll : decode 0b0100_0000_0011 = .rawnib 3 ∧ decode 0b1000_0000_0000 = .poll := by decide
theorem test_decode_reserved : decode 0b0011_0100_0001 = .reservedSendRead 1 0x41 ∧
    decode 0b0110_0000_0011 = .reservedRawnibBits 0b100000 3 ∧ decode 0b1000_0000_0001 = .reservedPollBits 1 ∧
    decode 0b1100_0000_0000 = .reservedOp 0 := by decide
theorem test_decode_rejects_wide : decodeNat 0x1000 = .error .tooWide ∧ decodeNat 0xFFF = .ok (.reservedOp 0x3FF) := by
  decide
theorem test_decode_table_word : decodeTableWord 12 0x038 = some (.funcset .eightBit .two) ∧
    decodeTableWord 16 0x001 = some .clear ∧ decodeTableWord 16 0x1001 = none := by decide

/-! ### Encoding: the command words of V40 to V64, V7, V9, V33 to V36 -/

theorem test_encode_entry : [Instr.entry .left .off, .entry .left .on, .entry .right .off, .entry .right .on].map encode
    = [0x004, 0x005, 0x006, 0x007] := by decide
theorem test_encode_dispctl : [Instr.dispctl .off .off .on, .dispctl .off .on .off, .dispctl .on .off .off,
    .dispctl .on .on .on].map encode = [0x009, 0x00A, 0x00C, 0x00F] := by decide
theorem test_encode_shift : [Instr.shift .cursor .left, .shift .cursor .right, .shift .display .left,
    .shift .display .right].map encode = [0x010, 0x014, 0x018, 0x01C] := by decide
theorem test_encode_funcset : [Instr.funcset .fourBit .single, .funcset .fourBit .two, .funcset .eightBit .single,
    .funcset .eightBit .two].map encode = [0x020, 0x028, 0x030, 0x038] := by decide
theorem test_encode_others : [Instr.clear, .home, .wrdata 0xFF, .irwrite 0x03, .rawnib 3, .poll].map encode
    = [0x001, 0x002, 0x2FF, 0x003, 0x403, 0x800] := by decide
theorem test_encode_send_and_reserved : [Instr.send 1 0 0x41, .send 1 1 0x41, .reservedSendRead 1 0x41,
    .reservedRawnibBits 1 3, .reservedPollBits 1, .reservedOp 0].map encode
    = [0x241, 0x341, 0x341, 0x413, 0x801, 0xC00] := by decide

/-! ### Acceptance: the latch and the first micro-step (40_bus_transport.md R120), one instruction at a time -/

/-- `OP`, `CRS`, `CRW`, `CDATA` and `SEQ`. -/
def latch (s : State) : BitVec 2 × Bit × Bit × Byte × Seq := (s.op, s.crs, s.crw, s.cdata, s.seq)

theorem test_exec_send : (next? (exec (.send 1 0 0x41) (fresh .eightBit))).map latch = some (0, 1, 0, 0x41, .P_CFG) := by
  decide
theorem test_exec_send_read : refusal? (exec (.send 0 1 0x00) (fresh .eightBit)) = some .sendRead := by decide
theorem test_exec_irwrite : (next? (exec (.irwrite 0xFF) (fresh .fourBit))).map latch = some (0, 0, 0, 0xFF, .P_CFG) := by
  decide
theorem test_exec_clear : (next? (exec .clear (fresh .fourBit))).map latch = some (0, 0, 0, 0x01, .P_CFG) := by decide
theorem test_exec_home : (next? (exec .home (fresh .eightBit))).map latch = some (0, 0, 0, 0x02, .P_CFG) := by decide
theorem test_exec_entry : (next? (exec (.entry .right .off) (fresh .eightBit))).map latch
    = some (0, 0, 0, 0x06, .P_CFG) := by decide
theorem test_exec_dispctl : (next? (exec (.dispctl .on .off .off) (fresh .eightBit))).map latch
    = some (0, 0, 0, 0x0C, .P_CFG) := by decide
theorem test_exec_shift : (next? (exec (.shift .cursor .right) (fresh .eightBit))).map latch
    = some (0, 0, 0, 0x14, .P_CFG) := by decide
theorem test_exec_funcset : (next? (exec (.funcset .fourBit .two) (fresh .eightBit))).map latch
    = some (0, 0, 0, 0x28, .P_CFG) := by decide
theorem test_exec_wrdata : (next? (exec (.wrdata 0x41) (fresh .eightBit))).map latch
    = some (0, 1, 0, 0x41, .P_CFG) := by decide
theorem test_exec_rawnib : (next? (exec (.rawnib 3) (fresh .fourBit))).map latch = some (1, 0, 0, 0x03, .R_CTRL) := by
  decide
theorem test_exec_poll : (next? (exec .poll (fresh .fourBit))).map latch = some (2, 0, 0, 0x00, .P_CFG) := by decide
/-- V33, V35, V36, V31. -/
theorem test_exec_reserved : [Instr.reservedSendRead 1 0x41, .reservedRawnibBits 0b100000 3, .reservedPollBits 1,
    .reservedOp 0x3FF].map (fun i => refusal? (exec i (fresh .eightBit)))
    = [some .sendRead, some .reservedBits, some .reservedBits, some .reservedOp] := by decide
theorem test_accept_event : (next? (exec (.wrdata 0x41) (fresh .eightBit))).map (·.pins) = some [.acc 0x241] := by decide
theorem test_held_off : (next? (exec .clear (sending .eightBit .S_D0))).map latch
    = some (0, 1, 0, 0xA5, .S_EH0) := by decide

/-! ### One micro-step (40_bus_transport.md R118) -/

theorem test_cfg7_in : (next? (step { fresh .eightBit with seq := .P_CFG })).map
    (fun t => (t.ddir, t.dpue, t.aux, t.seq)) = some (0x7F, 0x80, 1, .P_CTRL) := by decide
/-- 20_memory.md R72: the third sample since reset reads `Module(3)`. -/
theorem test_sample : (next? (step { polling .eightBit 2 .P_SMP with
      e := 1, pins := [.smp 1, .eLo, .smp 1, .eLo], oracle := ⟨[0, 0, 1], .cycle 0 []⟩ })).map
    (fun t => (t.bf, t.pins.getLast?, t.seq)) = some (1, some (.smp 1), .P_EL) := by decide
/-- 20_memory.md R72: an answer sequence that never settles, and "1 for ever" after two answers. -/
theorem test_oracle : [1, 2, 3, 4, 1001, 1002].map (Oracle.answer ⟨[], .cycle 1 [0]⟩) = [1, 0, 1, 0, 1, 0] ∧
    [1, 2, 3, 4, 99].map (Oracle.answer ⟨[0, 0], .cycle 1 []⟩) = [0, 0, 1, 1, 1] := by decide
/-- 20_memory.md R72: the sample number counts "since reset from 1". -/
theorem test_sample_number_restarts : (next? (step { polling .eightBit 2 .P_TEST with
      pins := [.smp 1], resetIn := [true], oracle := ⟨[1, 0, 0], .cycle 1 []⟩ })).map
    (fun t => (t.answer 0, t.answer 1)) = some (1, 0) := by decide
theorem test_read_cycle : (next? (step { polling .fourBit 2 .P_EL with e := 1, bf := 1 })).map
    (fun t => (t.bus, t.e, t.seq)) = some ([⟨0, 1, 0x7F, 0x00, some 1⟩], 0, .P_DEH) := by decide
/-- 10_state.md R34 and 20_memory.md R75. -/
theorem test_lines_in_poll : (polling .eightBit 2 .P_EH).pulledUp 7 = true ∧ (polling .eightBit 2 .P_EH).driven 7 = none ∧
    (polling .eightBit 2 .P_EH).driven 6 = some 0 := by decide
theorem test_loop_back : (next? (step { polling .fourBit 2 .P_TEST with bf := 1 })).map (·.seq) = some .P_EH := by decide
theorem test_restore : (next? (step (polling .fourBit 2 .P_REST))).map
    (fun t => (t.ddir, t.dpue, t.seq, t.pins)) = some (0xFF, 0x00, .IDLE, [.cfg7Out, .ret]) := by decide
/-- V12. -/
theorem test_data_eight : (next? (step (sending .eightBit .S_D0))).map (·.dout) = some 0xA5 := by decide
/-- V16: high nibble first. -/
theorem test_data_four : (next? (step (sending .fourBit .S_D0))).map (·.dout) = some 0xA0 ∧
    (next? (step { sending .fourBit .S_D1 with dout := 0xA0 })).map (·.dout) = some 0x50 := by decide
/-- V7 and V8. -/
theorem test_raw_data : (next? (step (rawing .eightBit .R_D))).map (·.pins) = some [.dat8 0x30] ∧
    (next? (step (rawing .fourBit .R_D))).map (·.pins) = some [.dat4 0x3] := by decide
/-- 70_reset_and_hazards.md R210. -/
theorem test_reset_wins : (next? (step { polling .eightBit 2 .P_PW with e := 1, resetIn := [true] })).map
    (fun t => (t.ddir, t.dpue, t.e, t.seq)) = some (0xFF, 0x00, 0, .IDLE) := by decide
theorem test_fetch_word : (next? (step (State.reset.withFetchWord 12 0x241))).map latch
    = some (0, 1, 0, 0x41, .P_CFG) := by decide
theorem test_fetch_reserved : refusal? (step (State.reset.withFetchWord 12 0x801)) = some .reservedBits := by decide
theorem test_refusal_codes : [Refusal.reservedOp, .sendRead, .reservedBits].map refusalCode = [some 1, some 2, some 3] := by
  decide

theorem test_params_in_range : Params.atReset.inRange = true ∧ Params.atReset.tScroll = 500000 := by decide

/-! ### Host macros -/

/-- P1 and P2, the command words. -/
theorem test_power_on_words : (expand { Params.atReset with mode := .fourBit, initLines := .two, initDisplay := .on }
    .initializeDisplay).filterMap (fun a => match a with | .command w => some w | _ => none)
    = [0x403, 0x403, 0x403, 0x402, 0x028, 0x00C, 0x006] := by decide
/-- V70. -/
theorem test_write_text_empty : expand Params.atReset (.writeText []) = [.command 0x001, .command 0x002, .command 0x006] := by
  decide
/-- V74: twenty characters, four scroll delays, 24 commands. -/
theorem test_write_text_twenty :
    (delaysOf 500000 (expand Params.atReset (.writeText (List.replicate 20 0x41))),
      (instructionsOf (expand Params.atReset (.writeText (List.replicate 20 0x41)))).length) = (4, 24) := by decide
theorem test_may_issue : mayIssue .uninitialized .clearDisplay = false ∧ mayIssue .ready .clearDisplay = true ∧
    mayIssue .uninitialized .initializeDisplay = true := by decide
/-- 42_display_controller.md R171: the same call before `Ready`, and in it. -/
theorem test_call_before_ready : (next? (step { fresh .eightBit with port := [.call .returnHome, .delay 7] })).map (·.port)
    = some [.delay 7] := by decide
theorem test_call_in_ready : (next? (step { fresh .eightBit with life := .ready, port := [.call .returnHome, .delay 7] })).map
    (·.port) = some [.command 0x002, .delay 7] := by decide
theorem test_call_initialize : (next? (step (callOp .initializeDisplay (fresh .eightBit)))).map (·.port.take 2)
    = some [.enter .initializing, .delay 50000] := by decide

/-! ### Witnesses: states that meet the hypotheses of the obligations -/

/-- A module that reads busy twice, then clear. -/
def busyTwice (m : BusMode) : State := { fresh m with oracle := ⟨[1, 1, 0], .cycle 0 []⟩ }

theorem witness_inv_fresh (m : BusMode) : (fresh m).Inv := by cases m <;> constructor <;> decide
theorem witness_inv_polling (m : BusMode) : (polling m 2 .P_EH).Inv := by cases m <;> constructor <;> decide
theorem witness_inv_sending : (sending .eightBit .S_EH0).Inv := by constructor <;> decide

/-- `DecodeAfterEncodeIsIdentity`, at the last byte of the catch-all row and at the least reserved payloads. -/
theorem witness_decode_after_encode : (∀ i ∈ [Instr.irwrite 0xFF, .irwrite 0x00, .reservedRawnibBits 1 0,
    .reservedPollBits 0x3FF], i.wf = true ∧ i.mnemonic ≠ .SEND) := by decide

/-- The `…Delivers` statements, `PollReturnsWhenModuleClears` and `PulseAndSampleCounts`: no busy sample, and two. -/
theorem witness_delivers (m : BusMode) :
    ((fresh m).Inv ∧ (fresh m).ready = true ∧ (fresh m).resetIn = [] ∧ (fresh m).ModuleReadyAfter 0) ∧
    ((busyTwice m).ready = true ∧ (busyTwice m).resetIn = [] ∧ (busyTwice m).ModuleReadyAfter 2) :=
  ⟨⟨witness_inv_fresh m, rfl, rfl, by intro j hj; omega, rfl⟩, rfl, rfl, by
    constructor
    · intro j hj
      rcases j with _ | _ | j
      · rfl
      · rfl
      · omega
    · rfl⟩
theorem witness_inv_busyTwice (m : BusMode) : (busyTwice m).Inv := by cases m <;> constructor <;> decide

/-- The bytes of `EntryDelivers`, `DispctlDelivers`, `ShiftDelivers`, `FuncsetDelivers` at their last operands. -/
theorem witness_bytes :
    (0x07#8 = 0b0000_0100#8 ||| EntryDirection.right.toBit.setWidth 8 <<< 1 ||| AutoShift.on.toBit.setWidth 8) ∧
    (0x0F#8 = 0b0000_1000#8 ||| DisplayState.on.toBit.setWidth 8 <<< 2 ||| CursorState.on.toBit.setWidth 8 <<< 1
      ||| BlinkState.on.toBit.setWidth 8) ∧
    (0x1C#8 = 0b0001_0000#8 ||| ShiftObject.display.toBit.setWidth 8 <<< 3 ||| ShiftDirection.right.toBit.setWidth 8 <<< 2) ∧
    (0x38#8 = 0b0010_0000#8 ||| BusMode.eightBit.toBit.setWidth 8 <<< 4 ||| LineCount.two.toBit.setWidth 8 <<< 3) := by
  decide

/-- `RawnibTransfersOneNibble`. -/
theorem witness_rawnib (m : BusMode) : (fresh m).Inv ∧ (fresh m).ready = true ∧ (fresh m).resetIn = [] :=
  ⟨witness_inv_fresh m, rfl, rfl⟩

/-- A ready block with one request at its port. -/
def requested (a : HostAction) : State := { fresh .eightBit with port := [a] }

/-- `ReservedWordsAreRefused`, each clause, at the first and last words of its range. -/
theorem witness_reserved (w : CmdWord) : (requested (.command w)).ready = true ∧
    (requested (.command w)).resetAsserted = false ∧ (requested (.command w)).port = [.command w] := ⟨rfl, rfl, rfl⟩
theorem witness_reserved_words : opField 0xC00 = 3 ∧ opField 0xFFF = 3 ∧ (opField 0x100 = 0 ∧ rwField 0x100 = 1) ∧
    (opField 0x3FF = 0 ∧ rwField 0x3FF = 1) ∧ (opField 0x410 = 1 ∧ rawReservedField 0x410 ≠ 0) ∧
    (opField 0x7FF = 1 ∧ rawReservedField 0x7FF ≠ 0) ∧ (opField 0x801 = 2 ∧ payloadField 0x801 ≠ 0) ∧
    (opField 0xBFF = 2 ∧ payloadField 0xBFF ≠ 0) := by decide

/-- `StepRunsTheDecodedCommand`: `witness_reserved` for the first clause; the last word for the second. -/
theorem witness_fetch : (0xFFF < 2 ^ 12 ∧ 0xFFF < 4096) ∧ (0 < 2 ^ 0 ∧ 0 < 4096) := by decide

/-- `BusyBlockHoldsRequestsOff`: a busy block that steps, and an instruction that is never refused. -/
theorem witness_busy : (polling .eightBit 2 .P_EH).ready = false ∧ (polling .eightBit 2 .P_EH).resetAsserted = false ∧
    (∃ t, step (polling .eightBit 2 .P_EH) = .next t) ∧
    (Instr.poll.wf = true ∧ ∀ s r, exec .poll s ≠ .refused r) := by
  refine ⟨rfl, rfl, ⟨_, rfl⟩, rfl, fun s r h => ?_⟩
  rw [exec_poll] at h
  unfold present at h
  split at h
  · cases h
  · rcases advance_next_or_fault s with ⟨t, ht⟩ | ⟨hf, _⟩
    · rw [ht] at h
      cases h
    · rw [hf] at h
      cases h

/-- `IdleBlockKeepsItsState`, its three clauses. -/
theorem witness_idle : ((fresh .fourBit).ready = true ∧ (fresh .fourBit).resetAsserted = false ∧ (fresh .fourBit).port = []) ∧
    (requested (.delay 0)).port = [.delay 0] ∧ (requested (.enter .ready)).port = [.enter .ready] :=
  ⟨⟨rfl, rfl, rfl⟩, rfl, rfl⟩

/-- `ResetOverridesEveryStep`, in the middle of a pulse. -/
theorem witness_reset : ({ polling .eightBit 2 .P_PW with e := 1, resetIn := [true] } : State).resetAsserted = true := rfl

/-- `ResetValuesAreTheSpecs`. -/
theorem witness_reset_of : State.reset = State.resetOf Params.atReset := rfl

/-- `TableCarriesOutSendPseudocode`: with two busy samples the loop comes out within three turns, in both modes. -/
theorem witness_send_pseudocode (m : BusMode) :
    ({ busyTwice m with seq := .P_CFG } : State).seq = .P_CFG ∧ ({ busyTwice m with seq := .P_CFG } : State).op = 0 ∧
    ({ busyTwice m with seq := .P_CFG } : State).resetIn = [] ∧
    ∃ u, sendBody 3 0 0 0 { busyTwice m with seq := .P_CFG } = some u := by
  cases m <;> exact ⟨rfl, rfl, rfl, _, rfl⟩

/-- `TableCarriesOutPollPseudocode`, with one turn. -/
theorem witness_poll_pseudocode (m : BusMode) :
    ({ fresh m with seq := .P_CFG, op := 2 } : State).seq = .P_CFG ∧ ({ fresh m with seq := .P_CFG, op := 2 } : State).op = 2 ∧
    ({ fresh m with seq := .P_CFG, op := 2 } : State).resetIn = [] ∧
    ∃ u, waitWhileBusy 1 { fresh m with seq := .P_CFG, op := 2 } = some u := by
  cases m <;> exact ⟨rfl, rfl, rfl, _, rfl⟩

/-- `TableCarriesOutRawnibPseudocode`, `EightBitStrategyWritesByteInOnePulse`, `FourBitStrategyWritesHighNibbleFirst`. -/
theorem witness_strategies (m : BusMode) : ((rawing m .R_CTRL).seq = .R_CTRL ∧ (rawing m .R_CTRL).resetIn = []) ∧
    ((sending .eightBit .S_DIR).seq = .S_DIR ∧ (sending .eightBit .S_DIR).mode = .eightBit ∧
      (sending .eightBit .S_DIR).resetIn = []) ∧
    ((sending .fourBit .S_D0).seq = .S_D0 ∧ (sending .fourBit .S_D0).mode = .fourBit ∧
      (sending .fourBit .S_D0).resetIn = []) := ⟨⟨rfl, rfl⟩, ⟨rfl, rfl, rfl⟩, rfl, rfl, rfl⟩

/-- `PollStepFrame` and `TransferStepFrame`. -/
theorem witness_frames : ((polling .fourBit 2 .P_REST).seq.group = .poll ∧ ∃ t, exec .clear (polling .fourBit 2 .P_REST) = .next t) ∧
    ((sending .fourBit .S_D1).seq.group = .send ∧ ∃ t, exec .clear (sending .fourBit .S_D1) = .next t) ∧
    ((rawing .eightBit .R_EL).seq.group = .raw ∧ ∃ t, exec .clear (rawing .eightBit .R_EL) = .next t) :=
  ⟨⟨rfl, _, rfl⟩, ⟨rfl, _, rfl⟩, rfl, _, rfl⟩

/-- `AcceptanceWritesOnlyTheLatch`. -/
theorem witness_acceptance (m : BusMode) : (Instr.wrdata 0xFF).wf = true ∧ (fresh m).ready = true ∧
    ∃ t, exec (.wrdata 0xFF) (fresh m) = .next t := ⟨rfl, rfl, _, rfl⟩

/-- `FourBitNeverWritesLowLines`, `ConfigurationNeverChanges`, `StepsAppendToTraces`. -/
theorem witness_four_bit_step : (sending .fourBit .S_D0).mode = .fourBit ∧ (sending .fourBit .S_D0).resetAsserted = false ∧
    ∃ t, step (sending .fourBit .S_D0) = .next t := ⟨rfl, rfl, _, rfl⟩

/-- `EveryStepKeepsInvariant`, `EveryStepKeepsBusCyclesShaped`, `EveryStepKeepsTraceAccounting`, `EveryStepKeepsBusyGuard`. -/
theorem witness_invariants (m : BusMode) : (fresh m).Inv ∧ (fresh m).BusShaped ∧ (fresh m).Accounted ∧ (fresh m).Watched ∧
    ∃ t, step { fresh m with port := [.command 0x001] } = .next t := by
  refine ⟨witness_inv_fresh m, (by intro c hc; cases hc), rfl, ?_, _, rfl⟩
  constructor
  · rfl
  · rfl
  · intro h; cases h rfl
  · intro h; simp [fresh, State.resetOf, Seq.group] at h

/-- `ResetMeetsInvariant`, `NoSendWritesBeforeClearBusyFlag`, one step on. -/
theorem witness_freshly_reset (m : BusMode) : (requested (.command 0x001)).FreshlyReset ∧ (fresh m).FreshlyReset ∧
    ∃ t, runSteps 1 (requested (.command 0x001)) = .next t := ⟨rfl, rfl, _, rfl⟩

/-- `TransferReachedOnlyThroughClearPoll`, its three clauses. -/
theorem witness_through_poll : (next? (step (polling .eightBit 0 .P_REST))).map (·.seq) = some .S_CTRL ∧
    (next? (step (polling .eightBit 0 .P_TEST))).map (·.seq) = some .P_REST ∧
    (next? (step (sending .eightBit .S_DIR))).map (·.seq.group) = some .send := by decide

/-- `LinesAreStillWhileEnableIsHigh`. -/
theorem witness_enable_high : ({ polling .eightBit 2 .P_SMP with e := 1 } : State).Inv ∧
    ∃ t, step { polling .eightBit 2 .P_SMP with e := 1 } = .next t := by
  refine ⟨?_, _, rfl⟩
  constructor <;> decide

/-- `OtherLinesStayOutputsDuringPoll`, `SampledLineIsRestoredOnEveryExit`: inside a poll, at its last row, and cut off by a
reset. -/
theorem witness_line_in : ((polling .fourBit 2 .P_EH).Inv ∧ (polling .fourBit 2 .P_EH).seq.lineIn = true) ∧
    ((polling .fourBit 2 .P_REST).seq.lineIn = true ∧
      (next? (step (polling .fourBit 2 .P_REST))).map (·.seq.lineIn) = some false) ∧
    (next? (step { polling .fourBit 2 .P_EH with resetIn := [true] })).map (·.seq.lineIn) = some false :=
  ⟨⟨witness_inv_polling .fourBit, rfl⟩, by decide, by decide⟩

/-- `PollHangsWhileModuleStaysBusy`. -/
def hanging (m : BusMode) : State := { fresh m with seq := .P_CFG, op := 2, oracle := ⟨[], .cycle 1 []⟩ }
theorem witness_hang (m : BusMode) : (hanging m).Inv ∧ (hanging m).seq = .P_CFG ∧ (hanging m).resetIn = [] ∧
    ∀ j, (hanging m).answer j = 1 :=
  ⟨by cases m <;> constructor <;> decide, rfl, rfl, fun _ => Oracle.answer_constant 1 _⟩

/-- `SendsAreCarriedOutInOrder`: a `WRDATA` with two busy samples, then a `CLEAR` with none. -/
def twoSends (m : BusMode) : State :=
  { fresh m with port := [.command 0x241, .command 0x001, .delay 0], oracle := ⟨[1, 1, 0, 0], .cycle 1 []⟩ }
theorem witness_in_order (m : BusMode) : (twoSends m).Inv ∧ (twoSends m).ready = true ∧ (twoSends m).resetIn = [] ∧
    (twoSends m).port = ([(1, 0x41, 2), (0, 0x01, 0)] : List (Bit × Byte × Nat)).map
      (fun c => HostAction.command (sendWord c.1 0 c.2.1)) ++ [.delay 0] ∧
    [1, 1, 0, 0] = ([(1, 0x41, 2), (0, 0x01, 0)] : List (Bit × Byte × Nat)).flatMap
      (fun c => List.replicate c.2.2 (1 : Bit) ++ [0]) ∧
    (∀ j b, [(1 : Bit), 1, 0, 0][j]? = some b → (twoSends m).answer j = b) := by
  refine ⟨by cases m <;> constructor <;> decide, rfl, rfl, rfl, rfl, fun j b h => ?_⟩
  rw [State.answer, show (twoSends m).sampleCount = 0 from rfl, Nat.zero_add, Nat.add_comm]
  exact Oracle.answer_first h

/-- `CommandsReturnWhenModuleIsEventuallyReady`: inside a poll, with a module that answers 1, 0, 1, 0, and so on. -/
def alternating : State := { polling .fourBit 2 .P_EH with oracle := ⟨[], .cycle 1 [0]⟩ }
theorem witness_eventually_ready : alternating.Inv ∧ alternating.ready = false ∧ alternating.resetIn = [] ∧
    alternating.oracle.ModuleEventuallyReady := by
  refine ⟨by constructor <;> decide, rfl, rfl, fun n => ⟨2 * n + 2, by omega, ?_⟩⟩
  simp [alternating, Oracle.answer]

/-- `PortDoesNotReachCommandInProgress`. -/
theorem witness_same_port : (polling .eightBit 2 .P_EH).samePort { polling .eightBit 2 .P_EH with port := [.command 0x001] } ∧
    (polling .eightBit 2 .P_EH).ready = false ∧ ∃ t, step (polling .eightBit 2 .P_EH) = .next t := ⟨rfl, rfl, _, rfl⟩

/-- `ModuleEntersOnlyAtSampleStep`. -/
theorem witness_same_but_module :
    (polling .eightBit 2 .P_EH).sameButModule { polling .eightBit 2 .P_EH with oracle := ⟨[1], .unknown 0⟩ } ∧
    (polling .eightBit 2 .P_EH).seq ≠ .P_SMP ∧ ∃ t, step (polling .eightBit 2 .P_EH) = .next t := ⟨rfl, by decide, _, rfl⟩

/-- `ModuleIsAnyFunctionOfTheSampleNumber`: a sample step, a reset, and the first three samples after one. -/
theorem witness_any_function : (polling .eightBit 2 .P_SMP).seq = .P_SMP ∧ (polling .eightBit 2 .P_SMP).resetAsserted = false ∧
    (∃ t, ({ fresh .eightBit with resetIn := [true] } : State).resetAsserted = true ∧
      step { fresh .eightBit with resetIn := [true] } = .next t) ∧ (fresh .eightBit).sampleCount + 3 ≤ 3 :=
  ⟨rfl, rfl, ⟨_, rfl, rfl⟩, Nat.le_refl 3⟩

/-- `OperationsAreIssuedInReadyOnly`: `initialize()` before `Ready`, another operation in `Ready`, and one before it. -/
theorem witness_calls : ((requested (.call .initializeDisplay)).ready = true ∧
      (requested (.call .initializeDisplay)).resetAsserted = false ∧
      (requested (.call .initializeDisplay)).port = [.call .initializeDisplay]) ∧
    ({ requested (.call .clearDisplay) with life := .ready } : State).life = .ready ∧
    (PublicOp.clearDisplay ≠ .initializeDisplay ∧ (requested (.call .clearDisplay)).life ≠ .ready) :=
  ⟨⟨rfl, rfl, rfl⟩, rfl, by decide, by decide⟩

/-- `InitializeMakesTheHostReady`. -/
theorem witness_initialize (m : BusMode) : (callOp .initializeDisplay (fresh m)).Inv ∧
    (callOp .initializeDisplay (fresh m)).ready = true ∧ (callOp .initializeDisplay (fresh m)).resetIn = [] ∧
    (callOp .initializeDisplay (fresh m)).oracle.ModuleEventuallyReady ∧
    (callOp .initializeDisplay (fresh m)).port = [.call .initializeDisplay] :=
  ⟨by cases m <;> constructor <;> decide, rfl, rfl, fun n => ⟨n, Nat.le_refl n, Oracle.answer_constant 0 n⟩, rfl⟩

/-- `WriteTextScrollsFromTheSeventeenth`: sixteen characters, and a seventeenth. -/
theorem witness_text : (List.replicate 16 (0x41 : Byte)).length ≤ scrollThreshold ∧
    (List.replicate 16 (0x41 : Byte)).length = scrollThreshold ∧ [(0x42 : Byte)] ≠ [] := by decide

/-- `PowerOnSequenceIsAsSpecified`: each mode. -/
theorem witness_modes : (fresh .eightBit).mode = .eightBit ∧ (fresh .fourBit).mode = .fourBit := ⟨rfl, rfl⟩

end Sys2Proof.Tests
end

section
/-! The state and its invariant (spec/10_state.md): the values after reset, what no step changes, and that every step
keeps `State.Inv`. -/

namespace Sys2Proof.Machine

variable {s t : State}

/-! ### Right after reset (10_state.md R42) -/

/-- A machine right after power-up is freshly reset. -/
theorem resetOf_freshlyReset (p : Params) : (State.resetOf p).FreshlyReset := rfl

/-- A machine is freshly reset after a step in which reset is asserted. -/
theorem takeReset_freshlyReset (s : State) : (takeReset s).FreshlyReset := rfl

/-- The reset table, read off any freshly reset machine. -/
theorem State.FreshlyReset.values (h : s.FreshlyReset) :
    s.seq = .IDLE ∧ s.dout = 0x00 ∧ s.ddir = 0xFF ∧ s.dpue = 0x00 ∧ s.rs = 0 ∧ s.rw = 0 ∧ s.e = 0 ∧ s.bf = 0 ∧
    s.pins = [] ∧ s.bus = [] :=
  ⟨congrArg State.seq h, congrArg State.dout h, congrArg State.ddir h, congrArg State.dpue h, congrArg State.rs h,
    congrArg State.rw h, congrArg State.e h, congrArg State.bf h, congrArg State.pins h, congrArg State.bus h⟩

/-- In `IDLE` the invariant asks for a block at rest, and for nothing of the latch. -/
theorem Inv_of_idle (hseq : s.seq = .IDLE) (he : s.e = 0) (hddir : s.ddir = 0xFF) (hdpue : s.dpue = 0x00)
    (hbf : s.bf = 0) (hlow : s.mode = .fourBit → s.dout &&& 0x0F = 0) : s.Inv where
  enable := by rw [hseq, he]; rfl
  direction := by rw [hseq, hddir]; rfl
  pullUp := by rw [hseq, hdpue]; rfl
  flagClear _ := hbf
  statusRead := by rw [hseq]; nofun
  pollLatch := by rw [hseq]; nofun
  sendLatch := by rw [hseq]; nofun
  rawLatch := by rw [hseq]; nofun
  sendLines := by rw [hseq]; nofun
  rawLines := by rw [hseq]; nofun
  eightOnly := by rw [hseq]; nofun
  fourOnly := by rw [hseq]; nofun
  lowLines := hlow

theorem Inv_of_freshlyReset (h : s.FreshlyReset) : s.Inv := by
  obtain ⟨hseq, hdout, hddir, hdpue, -, -, he, hbf, -, -⟩ := h.values
  exact Inv_of_idle hseq he hddir hdpue hbf fun _ => by rw [hdout]; rfl

theorem busShaped_of_freshlyReset (h : s.FreshlyReset) : s.BusShaped := by
  obtain ⟨-, -, -, -, -, -, -, -, -, hbus⟩ := h.values
  simp [State.BusShaped, hbus]

theorem accounted_of_freshlyReset (h : s.FreshlyReset) : s.Accounted := by
  obtain ⟨hseq, hdout, hddir, hdpue, hrs, hrw, he, hbf, hpins, hbus⟩ := h.values
  rw [State.Accounted, hseq, hdout, hddir, hdpue, hrs, hrw, he, hbf, hpins, hbus]
  rfl

theorem watched_of_freshlyReset (h : s.FreshlyReset) : s.Watched := by
  obtain ⟨hseq, -, -, -, -, hrw, -, -, hpins, -⟩ := h.values
  constructor
  case guarded => rw [State.BusyGuarded, hpins]; rfl
  case line => rw [hpins, hrw]; rfl
  case command => exact fun h => absurd hseq h
  case lastSample => simp [hseq, Seq.group]

/-- Settles O24: the power-up state is freshly reset, and its parameters and life cycle are as built. -/
theorem resetValuesAreTheSpecs : Obligations.ResetValuesAreTheSpecs := by
  rintro p s rfl
  obtain ⟨hseq, hdout, hddir, hdpue, hrs, hrw, he, hbf, hpins, hbus⟩ := (resetOf_freshlyReset p).values
  exact ⟨hseq, hdout, hddir, hdpue, hrs, hrw, he, hbf, (ready_iff _).mpr hseq, hpins, hbus, rfl, rfl⟩

/-- Settles O36: each invariant holds by the values of the reset table. -/
theorem resetMeetsInvariant : Obligations.ResetMeetsInvariant :=
  ⟨fun _ h => ⟨Inv_of_freshlyReset h, busShaped_of_freshlyReset h, accounted_of_freshlyReset h,
    watched_of_freshlyReset h⟩, resetOf_freshlyReset Params.atReset⟩

/-! ### The configuration (10_state.md R40) -/

/-- No row of the table writes the parameters. -/
theorem advance_keeps_params (h : advance s = .next t) : t.params = s.params := by
  apply advance_elim h <;> intros <;> subst_vars <;> simp

/-- Settles O34, by the cases of a step: each is a reset, a row, a host action or an acceptance, and none of these writes
the parameters. -/
theorem configurationNeverChanges : Obligations.ConfigurationNeverChanges := by
  intro s t h
  rcases step_next_cases h with ⟨_, rfl⟩ | ⟨_, _, ha⟩ | ⟨_, _, _, rfl⟩ | ⟨_, _, _, _, _, rfl⟩ | ⟨_, _, _, _, _, rfl⟩ |
    ⟨_, _, _, _, _, rfl⟩ | ⟨_, hq, _, _, _, he⟩
  · rfl
  · exact advance_keeps_params (s := s.resetSampled) ha
  · rfl
  · rfl
  · rfl
  · rfl
  · obtain ⟨_, _, rfl⟩ | ⟨_, rfl⟩ | rfl :=
      exec_next_of_ready (s := s.resetSampled.withPort _) ((ready_iff _).mpr hq) he <;> rfl

/-! ### Rows inside a phase of a command

The invariant asks the same of most states of `SEQ` as of the state before them, but for `E`: such rows need one lemma, and
one for each operation they perform. The rows that begin or end a phase come after. -/

/-- The two states belong to one phase of a command: after `p` the invariant asks of `q` nothing new, but for `E` and for the
states in `FourBit` only. So `p` is not the `S_CTRL` or `R_CTRL` that sets the lines, and `q` not a
state in `EightBit` only. -/
def Seq.samePhase (p q : Seq) : Bool :=
  p.group == q.group && p.lineIn == q.lineIn && p.reading == q.reading && p.sampling == q.sampling
    && p != .S_CTRL && p != .R_CTRL && !q.eightOnly

/-- `q` goes on with the phase `p` is in, and is in `FourBit` only if `p` is. -/
def Seq.continues (p q : Seq) : Bool := p.samePhase q && (!q.fourOnly || p.fourOnly)

theorem samePhase_of_continues {p q : Seq} (h : p.continues q = true) : p.samePhase q = true := by
  simp_all [Seq.continues]

section Rows

variable {p q : Seq}

/-- In a state that goes on with a phase, the mode is still the one it wants. -/
theorem mode_of_continues (hI : s.Inv) (hq : s.seq = p) (hp : p.continues q = true) (hfour : q.fourOnly = true) :
    s.mode = .fourBit :=
  hI.fourOnly (by simp_all [Seq.continues])

/-- A move inside a phase that writes `E` to what `q` wants it to be, `BF` only in the poll's loop, and `DOUT[3:0]` not in
`FourBit`. -/
theorem Inv_of_samePhase {e bf : Bit} {dout : Byte} {pins : List PinEvent} {bus : List BusCycle} (hI : s.Inv)
    (hp : s.seq.samePhase q = true) (hfour : q.fourOnly = true → s.mode = .fourBit)
    (he : e = if q.inPulse then 1 else 0) (hbf : q.sampling = false → bf = s.bf)
    (hlow : s.mode = .fourBit → dout &&& 0x0F = s.dout &&& 0x0F) :
    ({ s with e := e, bf := bf, dout := dout, pins := pins, bus := bus, seq := q } : State).Inv := by
  simp only [Seq.samePhase, Bool.and_eq_true, beq_iff_eq, bne_iff_ne, Bool.not_eq_true'] at hp
  obtain ⟨⟨⟨⟨⟨⟨hgroup, hline⟩, hread⟩, hsample⟩, hsend⟩, hraw⟩, height⟩ := hp
  exact {
    enable := he
    direction := hline ▸ hI.direction
    pullUp := hline ▸ hI.pullUp
    flagClear := fun h => (hbf h).trans (hI.flagClear (hsample.trans h))
    statusRead := fun h => hI.statusRead (hread.trans h)
    pollLatch := fun h => hI.pollLatch (hgroup.trans h)
    sendLatch := fun h => hI.sendLatch (hgroup.trans h)
    rawLatch := fun h => hI.rawLatch (hgroup.trans h)
    sendLines := fun h _ => hI.sendLines (hgroup.trans h) hsend
    rawLines := fun h _ => hI.rawLines (hgroup.trans h) hraw
    eightOnly := fun h => absurd (height.symm.trans h) Bool.false_ne_true
    fourOnly := hfour
    lowLines := fun hm => (hlow hm).trans (hI.lowLines hm) }

/-- The same for a row that asks nothing new of the mode. -/
theorem Inv_of_continues {e bf : Bit} {dout : Byte} {pins : List PinEvent} {bus : List BusCycle} (hI : s.Inv)
    (hq : s.seq = p) (hp : p.continues q = true) (he : e = if q.inPulse then 1 else 0)
    (hbf : q.sampling = false → bf = s.bf) (hlow : s.mode = .fourBit → dout &&& 0x0F = s.dout &&& 0x0F) :
    ({ s with e := e, bf := bf, dout := dout, pins := pins, bus := bus, seq := q } : State).Inv :=
  Inv_of_samePhase hI (hq ▸ samePhase_of_continues hp) (mode_of_continues hI hq hp) he hbf hlow

/-- Where `p` and `q` are both inside a pulse or both outside one, `E` is as `q` wants it. -/
theorem enable_of_inPulse_eq (hI : s.Inv) (hq : s.seq = p) (hE : q.inPulse = p.inPulse) :
    s.e = if q.inPulse then 1 else 0 := by
  rw [hE, ← hq]
  exact hI.enable

/-- `E` rises, inside a phase. -/
theorem Inv_eHi (hI : s.Inv) (hq : s.seq = p) (hp : p.continues q = true) (hE : q.inPulse = true) :
    ((eHi s).goto q).Inv :=
  Inv_of_continues (s := s) hI hq hp (by rw [hE]; rfl) (fun _ => rfl) fun _ => rfl

/-- `E` falls, inside a phase. Here the two modes part, so `q` may be a state in `FourBit` only. -/
theorem Inv_eLo (o : Option Bit) (hI : s.Inv) (hq : s.seq = p) (hp : p.samePhase q = true) (hE : q.inPulse = false)
    (hfour : q.fourOnly = true → s.mode = .fourBit) : ((eLo o s).goto q).Inv :=
  Inv_of_samePhase (s := s) hI (hq ▸ hp) hfour (by rw [hE]; rfl) (fun _ => rfl) fun _ => rfl

/-- The level of `E` is held for its time. -/
theorem Inv_dly (d : Nat) (hI : s.Inv) (hq : s.seq = p) (hp : p.continues q = true) (hE : q.inPulse = p.inPulse) :
    ((dly d s).goto q).Inv :=
  Inv_of_continues (s := s) hI hq hp (enable_of_inPulse_eq (s := s) hI hq hE) (fun _ => rfl) fun _ => rfl

/-- A sample is taken in the poll's loop, where `BF` is free. -/
theorem Inv_smp (b : Bit) (hI : s.Inv) (hq : s.seq = p) (hp : p.continues q = true) (hE : q.inPulse = p.inPulse)
    (hloop : q.sampling = true) : ((smp b s).goto q).Inv :=
  Inv_of_continues (s := s) hI hq hp (enable_of_inPulse_eq (s := s) hI hq hE) (by rw [hloop]; nofun) fun _ => rfl

/-- `SEQ` alone moves on. -/
theorem Inv_goto (hI : s.Inv) (hq : s.seq = p) (hp : p.continues q = true) (hE : q.inPulse = p.inPulse) :
    (s.goto q).Inv :=
  Inv_of_continues (s := s) hI hq hp (enable_of_inPulse_eq (s := s) hI hq hE) (fun _ => rfl) fun _ => rfl

/-- A whole byte goes to `DOUT`, in `EightBit`. -/
theorem Inv_dat8 (v : Byte) (hI : s.Inv) (hq : s.seq = p) (hp : p.continues q = true) (hE : q.inPulse = p.inPulse)
    (hm : s.mode = .eightBit) : ((dat8 v s).goto q).Inv :=
  Inv_of_continues (s := s) hI hq hp (enable_of_inPulse_eq (s := s) hI hq hE) (fun _ => rfl) (by rw [hm]; nofun)

/-- A nibble goes to `DOUT[7:4]`, and `DOUT[3:0]` stays. -/
theorem Inv_dat4 (n : Nibble) (hI : s.Inv) (hq : s.seq = p) (hp : p.continues q = true) (hE : q.inPulse = p.inPulse) :
    ((dat4 n s).goto q).Inv :=
  Inv_of_continues (s := s) hI hq hp (enable_of_inPulse_eq (s := s) hI hq hE) (fun _ => rfl)
    fun _ => upperLines_low n s.dout

/-- Outside a poll every line is an output already, so `DDIR <- 0xFF` changes nothing the invariant looks at. -/
theorem Inv_dirAll (hI : s.Inv) (hq : s.seq = p) (hp : p.continues q = true) (hE : q.inPulse = p.inPulse)
    (hout : p.lineIn = false) : ((dirAll s).goto q).Inv :=
  have hddir : s.ddir = 0xFF := by rw [hI.direction, hq, hout]; rfl
  Inv_congr (Inv_goto hI hq hp hE) rfl rfl rfl rfl hddir.symm rfl rfl rfl rfl rfl rfl rfl

end Rows

/-! ### Rows that begin or end a phase -/

/-- `P_CFG`: the line is taken over. -/
theorem Inv_takeLine (hI : s.Inv) (hq : s.seq = .P_CFG) : ((cfg7In s).goto .P_CTRL).Inv := by
  have he : s.e = 0 := by rw [hI.enable, hq]; rfl
  have hddir : s.ddir = 0xFF := by rw [hI.direction, hq]; rfl
  have hdpue : s.dpue = 0x00 := by rw [hI.pullUp, hq]; rfl
  exact {
    enable := he
    direction := by rw [State.goto_ddir, cfg7In_ddir, hddir]; rfl
    pullUp := by rw [State.goto_dpue, cfg7In_dpue, hdpue]; rfl
    flagClear := fun _ => hI.flagClear (by rw [hq]; rfl)
    statusRead := nofun
    pollLatch := fun _ => hI.pollLatch (by rw [hq]; rfl)
    sendLatch := nofun
    rawLatch := nofun
    sendLines := nofun
    rawLines := nofun
    eightOnly := nofun
    fourOnly := nofun
    lowLines := hI.lowLines }

/-- `P_CTRL`: the poll reads the status. -/
theorem Inv_readStatus (hI : s.Inv) (hq : s.seq = .P_CTRL) : ((ctl 0 1 s).goto .P_EH).Inv where
  enable := by rw [State.goto_e, ctl_e, hI.enable, hq]; rfl
  direction := by rw [State.goto_ddir, ctl_ddir, hI.direction, hq]; rfl
  pullUp := by rw [State.goto_dpue, ctl_dpue, hI.pullUp, hq]; rfl
  flagClear := nofun
  statusRead _ := ⟨rfl, rfl⟩
  pollLatch _ := hI.pollLatch (by rw [hq]; rfl)
  sendLatch := nofun
  rawLatch := nofun
  sendLines := nofun
  rawLines := nofun
  eightOnly := nofun
  fourOnly := nofun
  lowLines := hI.lowLines

/-- `P_TEST` with `BF = 0`: the loop is left. -/
theorem Inv_leaveLoop (hI : s.Inv) (hq : s.seq = .P_TEST) (hbf : s.bf = 0) : (s.goto .P_REST).Inv where
  enable := by rw [State.goto_e, hI.enable, hq]; rfl
  direction := by rw [State.goto_ddir, hI.direction, hq]; rfl
  pullUp := by rw [State.goto_dpue, hI.pullUp, hq]; rfl
  flagClear _ := hbf
  statusRead _ := hI.statusRead (by rw [hq]; rfl)
  pollLatch _ := hI.pollLatch (by rw [hq]; rfl)
  sendLatch := nofun
  rawLatch := nofun
  sendLines := nofun
  rawLines := nofun
  eightOnly := nofun
  fourOnly := nofun
  lowLines := hI.lowLines

/-- `P_REST`: the line is given back. -/
theorem cfg7Out_restores_line (hI : s.Inv) (hq : s.seq = .P_REST) :
    (cfg7Out s).e = 0 ∧ (cfg7Out s).ddir = 0xFF ∧ (cfg7Out s).dpue = 0x00 ∧ (cfg7Out s).bf = 0 := by
  have he : s.e = 0 := by rw [hI.enable, hq]; rfl
  have hddir : s.ddir = 0x7F := by rw [hI.direction, hq]; rfl
  have hdpue : s.dpue = 0x80 := by rw [hI.pullUp, hq]; rfl
  have hbf : s.bf = 0 := hI.flagClear (by rw [hq]; rfl)
  exact ⟨he, by rw [cfg7Out_ddir, hddir]; rfl, by rw [cfg7Out_dpue, hdpue]; rfl, hbf⟩

/-- `P_REST` of a `SEND`: the transfer begins. -/
theorem Inv_beginTransfer (hI : s.Inv) (hq : s.seq = .P_REST) (ho : s.op = 0) : ((cfg7Out s).goto .S_CTRL).Inv := by
  obtain ⟨he, hddir, hdpue, hbf⟩ := cfg7Out_restores_line hI hq
  have hwrites : s.crw = 0 := by
    obtain ⟨-, h⟩ | h := hI.pollLatch (by rw [hq]; rfl)
    · exact h
    · rw [ho] at h
      cases h
  exact {
    enable := he
    direction := hddir
    pullUp := hdpue
    flagClear := fun _ => hbf
    statusRead := nofun
    pollLatch := nofun
    sendLatch := fun _ => ⟨ho, hwrites⟩
    rawLatch := nofun
    sendLines := fun _ h => absurd rfl h
    rawLines := nofun
    eightOnly := nofun
    fourOnly := nofun
    lowLines := hI.lowLines }

/-- `P_REST` of a `POLL`: the command returns. -/
theorem Inv_endPoll (hI : s.Inv) (hq : s.seq = .P_REST) : (ret (cfg7Out s)).Inv := by
  obtain ⟨he, hddir, hdpue, hbf⟩ := cfg7Out_restores_line hI hq
  exact Inv_of_idle rfl he hddir hdpue hbf hI.lowLines

section Transfers

variable {p q : Seq}

/-- Outside a poll no line is an input, nothing is read and nothing sampled. -/
theorem notPolling_of_group (h : q.group ≠ .poll) : q.lineIn = false ∧ q.reading = false ∧ q.sampling = false := by
  simp [Seq.sampling, Seq.reading, Seq.lineIn, h]

/-- `S_CTRL`, `R_CTRL`: the command puts its levels on the lines, those of the latch in a `SEND` and `(0, 0)` in a
`RAWNIB`. The state `q` after it is another in each mode. -/
theorem Inv_ctl (a b : Bit) (hI : s.Inv) (hq : s.seq = p) (hgroup : p.group = q.group) (hout : q.group ≠ .poll)
    (hE : q.inPulse = p.inPulse) (hsend : q.group = .send → a = s.crs ∧ b = s.crw)
    (hraw : q.group = .raw → a = 0 ∧ b = 0)
    (height : q.eightOnly = true → s.mode = .eightBit) (hfour : q.fourOnly = true → s.mode = .fourBit) :
    ((ctl a b s).goto q).Inv := by
  subst hq
  obtain ⟨hline, hread, hsample⟩ := notPolling_of_group hout
  obtain ⟨hlineNow, -, hsampleNow⟩ := notPolling_of_group (hgroup.trans_ne hout)
  exact {
    enable := enable_of_inPulse_eq (s := s) hI rfl hE
    direction := hI.direction.trans (by rw [State.goto_seq, hline, hlineNow])
    pullUp := hI.pullUp.trans (by rw [State.goto_seq, hline, hlineNow])
    flagClear := fun _ => hI.flagClear hsampleNow
    statusRead := fun h => absurd (hread.symm.trans h) Bool.false_ne_true
    pollLatch := fun h => absurd h hout
    sendLatch := fun h => hI.sendLatch (hgroup.trans h)
    rawLatch := fun h => hI.rawLatch (hgroup.trans h)
    sendLines := fun h _ => hsend h
    rawLines := fun h _ => hraw h
    eightOnly := height
    fourOnly := hfour
    lowLines := hI.lowLines }

/-- The last pulse of a transfer ends and the command returns. -/
theorem Inv_endTransfer (hI : s.Inv) (hout : s.seq.group ≠ .poll) : (ret (eLo none s)).Inv := by
  obtain ⟨hline, -, hsample⟩ := notPolling_of_group hout
  have hddir : s.ddir = 0xFF := by rw [hI.direction, hline]; rfl
  have hdpue : s.dpue = 0x00 := by rw [hI.pullUp, hline]; rfl
  exact Inv_of_idle rfl rfl hddir hdpue (hI.flagClear hsample) hI.lowLines

end Transfers

/-! ### Every step (10_state.md R43) -/

/-- Every row of the table keeps the invariant, by the lemma for what the row does. -/
theorem advance_keeps_Inv (hI : s.Inv) (h : advance s = .next t) : t.Inv := by
  apply advance_elim h
  case IDLE => rintro - rfl; exact hI
  case P_CFG => rintro hq rfl; exact Inv_takeLine hI hq
  case P_CTRL => rintro hq rfl; exact Inv_readStatus hI hq
  case P_EH => rintro hq rfl; exact Inv_eHi hI hq rfl rfl
  case P_PW => rintro hq rfl; exact Inv_dly _ hI hq rfl rfl
  case P_SMP => rintro hq rfl; exact Inv_smp _ hI hq rfl rfl rfl
  case P_EL_eight => rintro hq - rfl; exact Inv_eLo _ hI hq rfl rfl nofun
  case P_EL_four => rintro hq hm rfl; exact Inv_eLo _ hI hq rfl rfl fun _ => hm
  case P_DEH => rintro hq rfl; exact Inv_eHi hI hq rfl rfl
  case P_DPW => rintro hq rfl; exact Inv_dly _ hI hq rfl rfl
  case P_DEL => rintro hq rfl; exact Inv_eLo _ hI hq rfl rfl nofun
  case P_TEST_busy => rintro hq - rfl; exact Inv_goto hI hq rfl rfl
  case P_TEST_clear => rintro hq hb rfl; exact Inv_leaveLoop hI hq hb
  case P_REST_send => rintro hq ho rfl; exact Inv_beginTransfer hI hq ho
  case P_REST_poll => rintro hq - rfl; exact Inv_endPoll hI hq
  case S_CTRL_eight =>
    rintro hq hm rfl
    exact Inv_ctl _ _ hI hq rfl nofun rfl (fun _ => ⟨rfl, rfl⟩) nofun (fun _ => hm) nofun
  case S_CTRL_four =>
    rintro hq - rfl
    exact Inv_ctl _ _ hI hq rfl nofun rfl (fun _ => ⟨rfl, rfl⟩) nofun nofun nofun
  case S_DIR => rintro hq rfl; exact Inv_dirAll hI hq rfl rfl rfl
  case S_D0_eight => rintro hq hm rfl; exact Inv_dat8 _ hI hq rfl rfl hm
  case S_D0_four => rintro hq - rfl; exact Inv_dat4 _ hI hq rfl rfl
  case S_EH0 => rintro hq rfl; exact Inv_eHi hI hq rfl rfl
  case S_PW0 => rintro hq rfl; exact Inv_dly _ hI hq rfl rfl
  case S_EL0_eight => rintro hq - rfl; exact Inv_endTransfer hI (by rw [hq]; nofun)
  case S_EL0_four => rintro hq hm rfl; exact Inv_eLo _ hI hq rfl rfl fun _ => hm
  case S_D1 => rintro hq rfl; exact Inv_dat4 _ hI hq rfl rfl
  case S_EH1 => rintro hq rfl; exact Inv_eHi hI hq rfl rfl
  case S_PW1 => rintro hq rfl; exact Inv_dly _ hI hq rfl rfl
  case S_EL1 => rintro hq rfl; exact Inv_endTransfer hI (by rw [hq]; nofun)
  case R_CTRL_eight =>
    rintro hq hm rfl
    exact Inv_ctl _ _ hI hq rfl nofun rfl nofun (fun _ => ⟨rfl, rfl⟩) (fun _ => hm) nofun
  case R_CTRL_four =>
    rintro hq - rfl
    exact Inv_ctl _ _ hI hq rfl nofun rfl nofun (fun _ => ⟨rfl, rfl⟩) nofun nofun
  case R_DIR => rintro hq rfl; exact Inv_dirAll hI hq rfl rfl rfl
  case R_D_eight => rintro hq hm rfl; exact Inv_dat8 _ hI hq rfl rfl hm
  case R_D_four => rintro hq - rfl; exact Inv_dat4 _ hI hq rfl rfl
  case R_EH => rintro hq rfl; exact Inv_eHi hI hq rfl rfl
  case R_PW => rintro hq rfl; exact Inv_dly _ hI hq rfl rfl
  case R_EL => rintro hq rfl; exact Inv_endTransfer hI (by rw [hq]; nofun)

/-- What the host and the reset input do, and a delay's event, are nothing to the invariant. -/
theorem Inv_of_environment {pins : List PinEvent} {port : List HostAction} {life : LifeCycle} {resetIn : List Bool}
    (hI : s.Inv) : ({ s with pins := pins, port := port, life := life, resetIn := resetIn } : State).Inv :=
  Inv_congr hI rfl rfl rfl rfl rfl rfl rfl rfl rfl rfl rfl rfl

/-- A ready block that answers an instruction has accepted it, and keeps the invariant. -/
theorem exec_keeps_Inv_of_ready {i : Instr} (hI : s.Inv) (hr : s.ready = true) (h : exec i s = .next t) : t.Inv := by
  obtain ⟨rs, byte, rfl⟩ | ⟨n, rfl⟩ | rfl := exec_next_of_ready hr h
  · exact Inv_accept hI hr (.inl ⟨.inl ⟨opField_sendWord rs 0 byte, rwField_sendWord rs 0 byte⟩, rfl⟩)
  · exact Inv_accept hI hr (.inr ⟨opField_rawnibWord n, rfl⟩)
  · exact Inv_accept hI hr (.inl ⟨.inr rfl, rfl⟩)

/-- Settles O37, by the cases of a step: a reset, a row of the table, nothing, an action of the host alone, an acceptance. -/
theorem everyStepKeepsInvariant : Obligations.EveryStepKeepsInvariant := by
  intro s t hI h
  rcases step_next_cases h with ⟨_, rfl⟩ | ⟨_, _, ha⟩ | ⟨_, _, _, rfl⟩ | ⟨_, _, _, _, _, rfl⟩ | ⟨_, _, _, _, _, rfl⟩ |
    ⟨_, _, _, _, _, rfl⟩ | ⟨_, hq, _, _, _, he⟩
  · exact Inv_of_freshlyReset (takeReset_freshlyReset _)
  · exact advance_keeps_Inv (Inv_of_environment (s := s) hI) ha
  · exact Inv_of_environment (s := s) hI
  · exact Inv_of_environment (s := s) hI
  · exact Inv_of_environment (s := s) hI
  · exact Inv_of_environment (s := s) hI
  · exact exec_keeps_Inv_of_ready (s := s.resetSampled.withPort _) (Inv_of_environment (s := s) hI)
      ((ready_iff _).mpr hq) he

end Sys2Proof.Machine
end

section
/-! What a step emits (spec/20_memory.md R73): every step is the environment's doing and then at most two pin events, each
performed by its own operation. The statements about the two traces follow from this one inversion. -/

namespace Sys2Proof.Machine

variable {s : State}

/-! ### The operations a row performs -/

/-- The states of a command in progress that come after a sample of it: `P_EL` to the end of the poll, and the transfer. -/
def Seq.afterSample (q : Seq) : Bool :=
  [.P_EL, .P_DEH, .P_DPW, .P_DEL, .P_TEST, .P_REST].contains q || q.group == .send

/-- The states whose row ends an enable pulse. -/
def Seq.endsPulse (q : Seq) : Bool := [.P_EL, .P_DEL, .S_EL0, .S_EL1, .R_EL].contains q

/-- How `SEQ` moves in a row that takes no sample: not into `P_EL`, into the states after a sample from those only, and not
out of `IDLE`. -/
def Seq.flows (p q : Seq) : Bool :=
  q != .P_EL && (!q.afterSample || p.afterSample) && (q == .IDLE || p != .IDLE)

/-- The bit sampled in the pulse that is open: it is in `BF`, and only `P_EL` comes between the sample and the `ELo`. -/
def State.openSample (s : State) : Option Bit := if s.seq = .P_EL then some s.bf else none

theorem openSample_none {p : Seq} (hq : s.seq = p) (hp : p ≠ .P_EL) : s.openSample = none :=
  if_neg (hq ▸ hp)

theorem openSample_P_EL (hq : s.seq = .P_EL) : s.openSample = some s.bf := if_pos hq

/-- The block performs the operation of one pin event other than `Ret` and moves on. Each constructor holds what the table of
R118 says of the rows with that operation: how `SEQ` flows, and where data are written and pulses end. -/
inductive Emits (s : State) : PinEvent → State → Prop
  | acc (w : CmdWord) {q : Seq} (hs : s.seq = .IDLE) (hfirst : q = .P_CFG ∨ q = .R_CTRL) : Emits s (.acc w) (accept w q s)
  | cfg7In {p q : Seq} (hs : s.seq = p) (hp : p ≠ .P_EL) (hpq : p.flows q = true) : Emits s .cfg7In ((cfg7In s).goto q)
  | ctl (a b : Bit) {p q : Seq} (hs : s.seq = p) (hp : p ≠ .P_EL) (hpq : p.flows q = true) :
    Emits s (.ctl a b) ((ctl a b s).goto q)
  | eHi {p q : Seq} (hs : s.seq = p) (hp : p ≠ .P_EL) (hpq : p.flows q = true) : Emits s .eHi ((eHi s).goto q)
  | dly (d : Nat) {p q : Seq} (hs : s.seq = p) (hp : p ≠ .P_EL) (hpq : p.flows q = true) :
    Emits s (.dly d) ((dly d s).goto q)
  | smp (b : Bit) (hs : s.seq = .P_SMP) : Emits s (.smp b) ((smp b s).goto .P_EL)
  | eLo {o : Option Bit} {p q : Seq} (ho : s.openSample = o) (hs : s.seq = p) (hp : p.endsPulse = true)
    (hpq : p.flows q = true) : Emits s .eLo ((eLo o s).goto q)
  | cfg7Out {p q : Seq} (hs : s.seq = p) (hp : p ≠ .P_EL) (hpq : p.flows q = true) : Emits s .cfg7Out ((cfg7Out s).goto q)
  | dirAll {p q : Seq} (hs : s.seq = p) (hp : p ≠ .P_EL) (hpq : p.flows q = true) : Emits s .dirAll ((dirAll s).goto q)
  | dat8 (v : Byte) {p q : Seq} (hs : s.seq = p) (hp : p.group ≠ .poll) (hpq : p.flows q = true)
    (hm : s.mode = .eightBit) : Emits s (.dat8 v) ((dat8 v s).goto q)
  | dat4 (n : Nibble) {p q : Seq} (hs : s.seq = p) (hp : p.group ≠ .poll) (hpq : p.flows q = true) :
    Emits s (.dat4 n) ((dat4 n s).goto q)

/-- What the block does in one step: it moves `SEQ` alone, or performs one operation, or performs one and returns. -/
inductive Does (s : State) : List PinEvent → State → Prop
  | move {p q : Seq} (hs : s.seq = p) (hp : p ≠ .P_EL) (hpq : p.flows q = true) : Does s [] (s.goto q)
  | one {t : State} {e : PinEvent} (h : Emits s e t) : Does s [e] t
  | last {t : State} {e : PinEvent} (h : Emits s e t) (hidle : t.seq = .IDLE) : Does s [e, .ret] (ret t)

variable {t : State}

theorem goto_of_seq {q : Seq} (hq : s.seq = q) : s.goto q = s := by
  subst hq
  rfl

/-- A block at rest stays as it is. -/
theorem Does.rest (hs : s.seq = .IDLE) : Does s [] s := by
  simpa only [goto_of_seq hs] using Does.move (q := .IDLE) hs nofun rfl

/-- A delay of the host, at rest. -/
theorem Does.wait (d : Nat) (hs : s.seq = .IDLE) : Does s [.dly d] (hostDelay d s) := by
  have h : Does s [.dly d] ((dly d s).goto .IDLE) := .one (.dly d hs nofun rfl)
  rwa [goto_of_seq (s := dly d s) hs] at h

/-- A row that ends the last pulse of a transfer. -/
theorem Does.returnAfterPulse {p : Seq} (hs : s.seq = p) (hp : p.endsPulse = true) (hread : p ≠ .P_EL) :
    Does s [.eLo, .ret] (ret (eLo none s)) :=
  .last (t := (eLo none s).goto .IDLE)
    (.eLo (openSample_none hs hread) hs hp (by simp [Seq.flows, Seq.afterSample, Seq.group])) rfl

/-- Every row of the table of R118 is one of these. -/
theorem advance_does (h : advance s = .next t) : ∃ evs, Does s evs t := by
  apply advance_elim h
  case IDLE => rintro hq rfl; exact ⟨_, .rest hq⟩
  case P_CFG => rintro hq rfl; exact ⟨_, .one (.cfg7In hq nofun rfl)⟩
  case P_CTRL => rintro hq rfl; exact ⟨_, .one (.ctl 0 1 hq nofun rfl)⟩
  case P_EH => rintro hq rfl; exact ⟨_, .one (.eHi hq nofun rfl)⟩
  case P_PW => rintro hq rfl; exact ⟨_, .one (.dly _ hq nofun rfl)⟩
  case P_SMP => rintro hq rfl; exact ⟨_, .one (.smp _ hq)⟩
  case P_EL_eight => rintro hq - rfl; exact ⟨_, .one (.eLo (openSample_P_EL hq) hq rfl rfl)⟩
  case P_EL_four => rintro hq - rfl; exact ⟨_, .one (.eLo (openSample_P_EL hq) hq rfl rfl)⟩
  case P_DEH => rintro hq rfl; exact ⟨_, .one (.eHi hq nofun rfl)⟩
  case P_DPW => rintro hq rfl; exact ⟨_, .one (.dly _ hq nofun rfl)⟩
  case P_DEL => rintro hq rfl; exact ⟨_, .one (.eLo (openSample_none hq nofun) hq rfl rfl)⟩
  case P_TEST_busy => rintro hq - rfl; exact ⟨_, .move hq nofun rfl⟩
  case P_TEST_clear => rintro hq - rfl; exact ⟨_, .move hq nofun rfl⟩
  case P_REST_send => rintro hq - rfl; exact ⟨_, .one (.cfg7Out hq nofun rfl)⟩
  case P_REST_poll => rintro hq - rfl; exact ⟨_, .last (t := (cfg7Out s).goto .IDLE) (.cfg7Out hq nofun rfl) rfl⟩
  case S_CTRL_eight => rintro hq - rfl; exact ⟨_, .one (.ctl _ _ hq nofun rfl)⟩
  case S_CTRL_four => rintro hq - rfl; exact ⟨_, .one (.ctl _ _ hq nofun rfl)⟩
  case S_DIR => rintro hq rfl; exact ⟨_, .one (.dirAll hq nofun rfl)⟩
  case S_D0_eight => rintro hq hm rfl; exact ⟨_, .one (.dat8 _ hq nofun rfl hm)⟩
  case S_D0_four => rintro hq - rfl; exact ⟨_, .one (.dat4 _ hq nofun rfl)⟩
  case S_EH0 => rintro hq rfl; exact ⟨_, .one (.eHi hq nofun rfl)⟩
  case S_PW0 => rintro hq rfl; exact ⟨_, .one (.dly _ hq nofun rfl)⟩
  case S_EL0_eight => rintro hq - rfl; exact ⟨_, .returnAfterPulse hq rfl nofun⟩
  case S_EL0_four => rintro hq - rfl; exact ⟨_, .one (.eLo (openSample_none hq nofun) hq rfl rfl)⟩
  case S_D1 => rintro hq rfl; exact ⟨_, .one (.dat4 _ hq nofun rfl)⟩
  case S_EH1 => rintro hq rfl; exact ⟨_, .one (.eHi hq nofun rfl)⟩
  case S_PW1 => rintro hq rfl; exact ⟨_, .one (.dly _ hq nofun rfl)⟩
  case S_EL1 => rintro hq rfl; exact ⟨_, .returnAfterPulse hq rfl nofun⟩
  case R_CTRL_eight => rintro hq - rfl; exact ⟨_, .one (.ctl 0 0 hq nofun rfl)⟩
  case R_CTRL_four => rintro hq - rfl; exact ⟨_, .one (.ctl 0 0 hq nofun rfl)⟩
  case R_DIR => rintro hq rfl; exact ⟨_, .one (.dirAll hq nofun rfl)⟩
  case R_D_eight => rintro hq hm rfl; exact ⟨_, .one (.dat8 _ hq nofun rfl hm)⟩
  case R_D_four => rintro hq - rfl; exact ⟨_, .one (.dat4 _ hq nofun rfl)⟩
  case R_EH => rintro hq rfl; exact ⟨_, .one (.eHi hq nofun rfl)⟩
  case R_PW => rintro hq rfl; exact ⟨_, .one (.dly _ hq nofun rfl)⟩
  case R_EL => rintro hq rfl; exact ⟨_, .returnAfterPulse hq rfl nofun⟩

/-! ### Every step without a reset -/

/-- The environment's doing in a step: the host's requests and life cycle, and the coming levels of the reset input. -/
def State.withEnvironment (s : State) (port : List HostAction) (life : LifeCycle) (resetIn : List Bool) : State :=
  { s with port := port, life := life, resetIn := resetIn }

/-- A step without a reset is the environment's doing and then what the block does. -/
theorem step_does (hr : s.resetAsserted = false) (h : step s = .next t) :
    ∃ port life resetIn evs, Does (s.withEnvironment port life resetIn) evs t := by
  rcases step_next_cases h with ⟨hr', _⟩ | ⟨_, _, ha⟩ | ⟨_, hq, _, rfl⟩ | ⟨_, hq, rest, d, _, rfl⟩ |
    ⟨_, hq, rest, l, _, rfl⟩ | ⟨_, hq, rest, op, _, rfl⟩ | ⟨_, hq, rest, _, _, he⟩
  · exact absurd (hr.symm.trans hr') Bool.false_ne_true
  · exact ⟨_, _, _, advance_does (s := s.resetSampled) ha⟩
  · exact ⟨_, _, _, _, .rest (s := s.resetSampled) hq⟩
  · exact ⟨_, _, _, _, .wait (s := s.resetSampled.withPort rest) d hq⟩
  · exact ⟨_, _, _, _, .rest (s := hostEnter l (s.resetSampled.withPort rest)) hq⟩
  · exact ⟨_, _, _, _, .rest (s := hostCall op (s.resetSampled.withPort rest)) hq⟩
  · obtain ⟨_, _, rfl⟩ | ⟨_, rfl⟩ | rfl :=
      exec_next_of_ready (s := s.resetSampled.withPort rest) ((ready_iff _).mpr hq) he
    · exact ⟨_, _, _, _, .one (.acc (s := s.resetSampled.withPort rest) _ hq (.inl rfl))⟩
    · exact ⟨_, _, _, _, .one (.acc (s := s.resetSampled.withPort rest) _ hq (.inr rfl))⟩
    · exact ⟨_, _, _, _, .one (.acc (s := s.resetSampled.withPort rest) _ hq (.inl rfl))⟩

end Sys2Proof.Machine
end

section
/-! The two traces (spec/20_memory.md R62, R65, R66, R68, R73): what a step adds to them, what the pin events account for,
the shapes of the bus cycles, and the busy flag's guard. -/

namespace Sys2Proof.Machine

variable {s t : State} {e : PinEvent} {evs : List PinEvent}

/-! ### The pin events account for everything (R73) -/

/-- The registers and traces that a trace of pin events is to account for. -/
def State.pinRegs (s : State) : PinRegs where
  rs := s.rs
  rw := s.rw
  e := s.e
  dout := s.dout
  ddir := s.ddir
  dpue := s.dpue
  bf := s.bf
  openSample := s.openSample
  bus := s.bus

theorem accounted_iff : s.Accounted ↔ replay s.pins = s.pinRegs := Iff.rfl

theorem replay_append (evs : List PinEvent) (e : PinEvent) : replay (evs ++ [e]) = (replay evs).see e := by
  simp [replay]

/-- No row but that of a sample leads into `P_EL`. -/
theorem openSample_goto {p q : Seq} (h : p.flows q = true) (s : State) : (s.goto q).openSample = none :=
  openSample_none rfl (by simp_all [Seq.flows])

/-- An operation appends its event to the trace. -/
theorem Emits.pins (h : Emits s e t) : t.pins = s.pins ++ [e] := by
  cases h <;> rfl

/-- An operation does to the registers what R73 says of its event. -/
theorem Emits.pinRegs (h : Emits s e t) : t.pinRegs = s.pinRegs.see e := by
  cases h with
  | @acc w q hs hfirst =>
    have hclosed := openSample_none hs nofun
    have hclosed' : (accept w q s).openSample = none := openSample_none (p := q) rfl (by rcases hfirst with rfl | rfl <;> decide)
    simp only [State.pinRegs, hclosed, hclosed']
    rfl
  | smp b hs => rfl
  | eLo ho hs hp hpq =>
    simp only [State.pinRegs, openSample_goto hpq, ho]
    rfl
  | dat8 v hs hp hpq _ | dat4 n hs hp hpq =>
    simp only [State.pinRegs, openSample_goto hpq, openSample_none hs (by rintro rfl; exact hp rfl)]
    rfl
  | cfg7In hs hp hpq | ctl _ _ hs hp hpq | eHi hs hp hpq | dly _ hs hp hpq | cfg7Out hs hp hpq | dirAll hs hp hpq =>
    simp only [State.pinRegs, openSample_goto hpq, openSample_none hs hp]
    rfl

/-- An operation keeps the account: its event is read as it was performed. -/
theorem Emits.keeps_accounted (h : Emits s e t) (hA : s.Accounted) : t.Accounted := by
  rw [accounted_iff] at hA ⊢
  rw [h.pins, replay_append, hA, h.pinRegs]

/-- `SEQ` reaches no pin, if no pulse that has been sampled is open before it moves or after. -/
theorem pinRegs_goto {q : Seq} (hs : s.openSample = none) (hq : (s.goto q).openSample = none) :
    (s.goto q).pinRegs = s.pinRegs := by
  simp only [State.pinRegs, hs, hq]
  rfl

/-- A return is `Ret` in the trace, which R73 gives no meaning for the pins, and the move to `IDLE`. -/
theorem accounted_ret (hs : s.openSample = none) (hA : s.Accounted) : (ret s).Accounted := by
  rw [accounted_iff] at hA ⊢
  rw [ret_pins, replay_append, hA]
  exact (pinRegs_goto (q := .IDLE) hs (openSample_none rfl nofun)).symm

/-- What the block does keeps the account. -/
theorem Does.keeps_accounted (h : Does s evs t) (hA : s.Accounted) : t.Accounted := by
  cases h with
  | move hs hp hpq =>
    exact accounted_iff.mpr
      ((accounted_iff.mp hA).trans (pinRegs_goto (openSample_none hs hp) (openSample_goto hpq s)).symm)
  | one he => exact he.keeps_accounted hA
  | last he hidle => exact accounted_ret (openSample_none hidle nofun) (he.keeps_accounted hA)

/-- Settles O39: a reset empties the traces, the environment reaches no pin, and the block's operations are read as they
were performed. -/
theorem everyStepKeepsTraceAccounting : Obligations.EveryStepKeepsTraceAccounting := by
  intro s t hA h
  cases hr : s.resetAsserted with
  | true =>
    rw [step_reset hr, Host.Outcome.next.injEq] at h
    exact accounted_of_freshlyReset (h ▸ takeReset_freshlyReset _)
  | false =>
    obtain ⟨port, life, resetIn, evs, hdo⟩ := step_does hr h
    exact hdo.keeps_accounted hA

/-! ### A step only appends to the traces (R65, R66) -/

/-- An operation records a bus cycle if it is an `ELo`, and then the cycle that the lines are in. -/
theorem Emits.bus (h : Emits s e t) :
    (e ≠ .eLo ∧ t.bus = s.bus) ∨
    (e = .eLo ∧ s.seq.endsPulse = true ∧ t.bus = s.bus ++ [⟨s.rs, s.rw, s.ddir, s.dout, s.openSample⟩]) := by
  cases h with
  | eLo ho hs hp _ => exact .inr ⟨rfl, hs ▸ hp, ho ▸ rfl⟩
  | _ => exact .inl ⟨nofun, rfl⟩

/-- An operation adds its event and, exactly if it is an `ELo`, one bus cycle. -/
theorem Emits.appends (h : Emits s e t) :
    ∃ cs, t.pins = s.pins ++ [e] ∧ t.bus = s.bus ++ cs ∧ cs.length ≤ 1 ∧ (cs ≠ [] ↔ .eLo = e) := by
  rcases h.bus with ⟨he, hbus⟩ | ⟨rfl, _, hbus⟩
  · exact ⟨[], h.pins, by simpa using hbus, by simp, by simpa using he.symm⟩
  · exact ⟨[_], h.pins, hbus, by simp, by simp⟩

/-- What the block does adds at most two events, and a bus cycle exactly where an `ELo` is. -/
theorem Does.appends (h : Does s evs t) :
    ∃ cs, t.pins = s.pins ++ evs ∧ t.bus = s.bus ++ cs ∧ evs.length ≤ 2 ∧ cs.length ≤ 1 ∧
      (cs ≠ [] ↔ PinEvent.eLo ∈ evs) := by
  cases h with
  | move => exact ⟨[], by simp⟩
  | one he =>
    obtain ⟨cs, hpins, hbus, hlength, hmem⟩ := he.appends
    exact ⟨cs, hpins, hbus, by simp, hlength, by simpa using hmem⟩
  | last he _ =>
    obtain ⟨cs, hpins, hbus, hlength, hmem⟩ := he.appends
    exact ⟨cs, by simp [hpins], hbus, by simp, hlength, by simpa using hmem⟩

/-- Settles O35: without a reset a step is at most one operation and a return, each with its event. -/
theorem stepsAppendToTraces : Obligations.StepsAppendToTraces := by
  intro s t hr h
  obtain ⟨port, life, resetIn, evs, hdo⟩ := step_does hr h
  exact ⟨evs, hdo.appends⟩

/-! ### Who writes `DOUT` (R62, R75) -/

/-- An operation keeps the parameters. -/
theorem Emits.params (h : Emits s e t) : t.params = s.params := by
  cases h <;> rfl

/-- An operation of a poll keeps `DOUT`. -/
theorem Emits.dout_of_poll (h : Emits s e t) (hpoll : s.seq.group = .poll) : t.dout = s.dout := by
  cases h with
  | dat8 _ hs hp _ _ | dat4 _ hs hp _ => exact absurd hpoll (hs ▸ hp)
  | _ => rfl

/-- An operation in `FourBit` keeps `DOUT[3:0]`: only `Dat4` writes `DOUT`, to `DOUT[7:4]`. -/
theorem Emits.lowLines (h : Emits s e t) (hm : s.mode = .fourBit) : t.dout &&& 0x0F = s.dout &&& 0x0F := by
  cases h with
  | dat8 _ _ _ _ hm' => cases hm.symm.trans hm'
  | dat4 n => exact upperLines_low n s.dout
  | _ => rfl

/-- Settles O33: the operation of a step keeps `DOUT[3:0]`, and a return or a move of `SEQ` all of `DOUT`. -/
theorem fourBitNeverWritesLowLines : Obligations.FourBitNeverWritesLowLines := by
  intro s t hm hr h
  obtain ⟨port, life, resetIn, evs, hdo⟩ := step_does hr h
  cases hdo with
  | move => rfl
  | one he => exact he.lowLines hm
  | last he _ => exact he.lowLines hm

/-- The lines a poll leaves outputs drive `DOUT`, and `D[7]` drives nothing. -/
theorem driven_of_direction (h : s.ddir = 0x7F) :
    s.driven 7 = none ∧ ∀ i : Fin 8, i ≠ 7 → s.driven i = some (byteBit s.dout i) := by
  have houtputs : ∀ i : Fin 8, i ≠ 7 → (0x7F : Byte).getLsbD i = true := by decide
  exact ⟨by rw [State.driven, h]; rfl, fun i hi => by rw [State.driven, h, houtputs i hi]; rfl⟩

theorem group_of_lineIn {q : Seq} (h : q.lineIn = true) : q.group = .poll := by
  simp_all [Seq.lineIn]

/-- Settles O44: the direction is the invariant's, and no operation of a poll writes `DOUT`. -/
theorem otherLinesStayOutputsDuringPoll : Obligations.OtherLinesStayOutputsDuringPoll := by
  intro s t hI hline
  have hddir : s.ddir = 0x7F := by rw [hI.direction, hline]; rfl
  obtain ⟨h7, hothers⟩ := driven_of_direction hddir
  refine ⟨hddir, h7, hothers, fun hr h => ?_⟩
  obtain ⟨port, life, resetIn, evs, hdo⟩ := step_does hr h
  cases hdo with
  | move => rfl
  | one he => exact he.dout_of_poll (group_of_lineIn hline)
  | last he _ => exact he.dout_of_poll (group_of_lineIn hline)

/-! ### The shapes of the bus cycles (R60, R73) -/

theorem endsPulse_cases {q : Seq} (h : q.endsPulse = true) :
    q = .P_EL ∨ q = .P_DEL ∨ q = .S_EL0 ∨ q = .S_EL1 ∨ q = .R_EL := by
  simpa [Seq.endsPulse] using h

/-- The lines while the status is read. -/
theorem State.Inv.read_lines (hI : s.Inv) (h : s.seq.reading = true) : s.rs = 0 ∧ s.rw = 1 ∧ s.ddir = 0x7F := by
  obtain ⟨hrs, hrw⟩ := hI.statusRead h
  have hline : s.seq.lineIn = true := by simp_all [Seq.reading]
  exact ⟨hrs, hrw, by rw [hI.direction, hline]; rfl⟩

/-- The lines in a transfer, once its `Ctl` is done. -/
theorem State.Inv.write_lines (hI : s.Inv)
    (h : (s.seq.group = .send ∧ s.seq ≠ .S_CTRL) ∨ (s.seq.group = .raw ∧ s.seq ≠ .R_CTRL)) :
    s.rw = 0 ∧ s.ddir = 0xFF := by
  have hout : s.seq.group ≠ .poll := by rcases h with ⟨h, _⟩ | ⟨h, _⟩ <;> rw [h] <;> nofun
  have hddir : s.ddir = 0xFF := by rw [hI.direction, (notPolling_of_group hout).1]; rfl
  rcases h with ⟨hsend, hctl⟩ | ⟨hraw, hctl⟩
  · exact ⟨(hI.sendLines hsend hctl).2.trans (hI.sendLatch hsend).2, hddir⟩
  · exact ⟨(hI.rawLines hraw hctl).2, hddir⟩

/-- Writing the nibble that is on the lines changes nothing. -/
theorem upperLines_highNibble : ∀ d : Byte, upperLines (highNibble d) d = d := by
  set_option maxRecDepth 100000 in decide

/-- A write pulse has one of the two admitted shapes, by the mode. -/
theorem BusCycle.Shape.write {m : BusMode} (rs : Bit) (dout : Byte) (hlow : m = .fourBit → dout &&& 0x0F = 0) :
    BusCycle.Shape m ⟨rs, 0, 0xFF, dout, none⟩ := by
  cases m with
  | eightBit => exact .write8 rs dout rfl
  | fourBit =>
    have h := BusCycle.Shape.write4 rs (highNibble dout) dout rfl (hlow rfl)
    rwa [wr4, upperLines_highNibble] at h

/-- The bus cycle a pulse ends with is a read, a dummy or a write, by the row that ends it. -/
theorem State.Inv.cycle_shape (hI : s.Inv) (hp : s.seq.endsPulse = true) :
    BusCycle.Shape s.mode ⟨s.rs, s.rw, s.ddir, s.dout, s.openSample⟩ := by
  rcases endsPulse_cases hp with hq | hq | hq | hq | hq
  case inl =>
    obtain ⟨hrs, hrw, hddir⟩ := hI.read_lines (by rw [hq]; rfl)
    rw [hrs, hrw, hddir, openSample_P_EL hq]
    exact .read s.bf s.dout
  case inr.inl =>
    obtain ⟨hrs, hrw, hddir⟩ := hI.read_lines (by rw [hq]; rfl)
    rw [hrs, hrw, hddir, openSample_none hq nofun]
    exact .dummy s.dout (hI.fourOnly (by rw [hq]; rfl))
  all_goals
    obtain ⟨hrw, hddir⟩ := hI.write_lines (by rw [hq]; decide)
    rw [hrw, hddir, openSample_none hq nofun]
    exact .write s.rs s.dout hI.lowLines

/-- An operation keeps the shapes: a cycle it records has one. -/
theorem Emits.keeps_busShaped (h : Emits s e t) (hI : s.Inv) (hB : s.BusShaped) : t.BusShaped := by
  intro c hc
  rw [State.mode, h.params]
  rcases h.bus with ⟨_, hbus⟩ | ⟨_, hp, hbus⟩ <;> rw [hbus] at hc
  · exact hB c hc
  · rcases List.mem_append.mp hc with hc | hc
    · exact hB c hc
    · rw [List.mem_singleton.mp hc]
      exact hI.cycle_shape hp

/-- Settles O38: a step records a cycle only where a pulse ends, and there the invariant gives the lines. -/
theorem everyStepKeepsBusCyclesShaped : Obligations.EveryStepKeepsBusCyclesShaped := by
  intro s t hI hB h
  cases hr : s.resetAsserted with
  | true =>
    rw [step_reset hr, Host.Outcome.next.injEq] at h
    exact busShaped_of_freshlyReset (h ▸ takeReset_freshlyReset _)
  | false =>
    obtain ⟨port, life, resetIn, evs, hdo⟩ := step_does hr h
    cases hdo with
    | move => exact hB
    | one he => exact he.keeps_busShaped (Inv_of_environment hI) hB
    | last he _ => exact he.keeps_busShaped (Inv_of_environment hI) hB

/-! ### The busy flag's guard (R68) -/

theorem watch_append (evs : List PinEvent) (e : PinEvent) : watch (evs ++ [e]) = (watch evs).see e := by
  simp [watch]

theorem flows_iff {p q : Seq} :
    p.flows q = true ↔ q ≠ .P_EL ∧ (q.afterSample = true → p.afterSample = true) ∧ (q ≠ .IDLE → p ≠ .IDLE) := by
  simp [Seq.flows, and_assoc, or_iff_not_imp_left]

theorem afterSample_iff {q : Seq} :
    q.afterSample = true ↔ q ∈ [.P_EL, .P_DEH, .P_DPW, .P_DEL, .P_TEST, .P_REST] ∨ q.group = .send := by
  simp [Seq.afterSample]

/-- Where `SEQ` moves without a sample, and the watcher sees `RW` change at most, what it has seen stays right. -/
theorem watched_of_flows (hW : s.Watched) (hflow : s.seq.flows t.seq = true)
    (hwatch : watch t.pins = { watch s.pins with rw := t.rw }) (hop : t.op = s.op) (hbf : t.bf = s.bf) : t.Watched := by
  obtain ⟨-, hsampled, hidle⟩ := flows_iff.mp hflow
  constructor
  case guarded => rw [State.BusyGuarded, hwatch]; exact hW.guarded
  case line => rw [hwatch]
  case command => intro h; rw [hwatch, hop]; exact hW.command (hidle h)
  case lastSample =>
    intro h
    rw [hwatch, hbf]
    exact hW.lastSample (afterSample_iff.mp (hsampled (afterSample_iff.mpr h)))

/-- The watcher knows the level of `RW`. -/
theorem State.Watched.watch_eq (hW : s.Watched) : watch s.pins = { watch s.pins with rw := s.rw } := by
  rw [← hW.line]

/-- Where a pulse ends, it is no write pulse, or not a `SEND`'s, or the last sample of the command was 0. -/
theorem State.Watched.pulse_guarded (hW : s.Watched) (hI : s.Inv) (hp : s.seq.endsPulse = true) :
    (watch s.pins).op ≠ 0 ∨ (watch s.pins).rw = 1 ∨ (watch s.pins).last = some 0 := by
  rcases endsPulse_cases hp with hq | hq | hq | hq | hq
  case inr.inr.inr.inr =>
    have hop : s.op = 1 := hI.rawLatch (by rw [hq]; rfl)
    exact .inl (by rw [hW.command (by rw [hq]; nofun), hop]; decide)
  case inl | inr.inl => exact .inr (.inl (hW.line.trans (hI.read_lines (by rw [hq]; rfl)).2.1))
  all_goals
    have hbf : s.bf = 0 := hI.flagClear (by rw [hq]; rfl)
    exact .inr (.inr (hbf ▸ hW.lastSample (.inr (by rw [hq]; rfl))))

/-- The end of a pulse, as the watcher of a guarded trace sees it. -/
theorem Watch.see_eLo {w : Watch} (h : w.op ≠ 0 ∨ w.rw = 1 ∨ w.last = some 0) : w.see .eLo = w := by
  have hguard : (w.op != 0 || w.rw == 1 || w.last == some 0) = true := by
    simpa [or_assoc] using h
  simp only [Watch.see, hguard, Bool.and_true]

/-- An operation keeps what the watcher has seen. -/
theorem Emits.keeps_watched (h : Emits s e t) (hI : s.Inv) (hW : s.Watched) : t.Watched := by
  have hwatch : watch t.pins = (watch s.pins).see e := by rw [h.pins, watch_append]
  cases h with
  | acc w hs hfirst =>
    constructor
    case guarded => rw [State.BusyGuarded, hwatch]; exact hW.guarded
    case line => rw [hwatch]; exact hW.line
    case command => intro _; rw [hwatch]; rfl
    case lastSample => rcases hfirst with rfl | rfl <;> simp [Seq.group]
  | smp b hs =>
    constructor
    case guarded => rw [State.BusyGuarded, hwatch]; exact hW.guarded
    case line => rw [hwatch]; exact hW.line
    case command => intro _; rw [hwatch]; exact hW.command (by rw [hs]; nofun)
    case lastSample => intro _; rw [hwatch]; rfl
  | eLo _ hs hp hpq =>
    rw [Watch.see_eLo (hW.pulse_guarded hI (hs ▸ hp))] at hwatch
    exact watched_of_flows hW (hs ▸ hpq) (hwatch.trans hW.watch_eq) rfl rfl
  | ctl a b hs _ hpq => exact watched_of_flows hW (hs ▸ hpq) hwatch rfl rfl
  | cfg7In hs _ hpq | eHi hs _ hpq | dly _ hs _ hpq | cfg7Out hs _ hpq | dirAll hs _ hpq | dat8 _ hs _ hpq _
  | dat4 _ hs _ hpq =>
    exact watched_of_flows hW (hs ▸ hpq) (hwatch.trans hW.watch_eq) rfl rfl

/-- The watcher does not look at a return. -/
theorem watched_ret (hW : s.Watched) : (ret s).Watched :=
  watched_of_flows hW (flows_iff.mpr ⟨nofun, nofun, fun h => absurd rfl h⟩)
    ((watch_append s.pins .ret).trans hW.watch_eq) rfl rfl

/-- The watcher sees the pins and the block, not the environment. -/
theorem watched_withEnvironment (hW : s.Watched) (port : List HostAction) (life : LifeCycle) (resetIn : List Bool) :
    (s.withEnvironment port life resetIn).Watched :=
  ⟨hW.guarded, hW.line, hW.command, hW.lastSample⟩

/-- Settles O40: the only pulses of a `SEND` that write are in its transfer, where the last sample is what `BF` holds, and
`BF` is 0. -/
theorem everyStepKeepsBusyGuard : Obligations.EveryStepKeepsBusyGuard := by
  intro s t hI hW h
  cases hr : s.resetAsserted with
  | true =>
    rw [step_reset hr, Host.Outcome.next.injEq] at h
    exact watched_of_freshlyReset (h ▸ takeReset_freshlyReset _)
  | false =>
    obtain ⟨port, life, resetIn, evs, hdo⟩ := step_does hr h
    have hI' : (s.withEnvironment port life resetIn).Inv := Inv_of_environment hI
    have hW' := watched_withEnvironment hW port life resetIn
    cases hdo with
    | move hs _ hpq => exact watched_of_flows hW' (hs ▸ hpq) hW'.watch_eq rfl rfl
    | one he => exact he.keeps_watched hI' hW'
    | last he _ => exact watched_ret (he.keeps_watched hI' hW')

/-- Settles O41: the invariant and the guard hold right after reset, and every step keeps both. -/
theorem noSendWritesBeforeClearBusyFlag : Obligations.NoSendWritesBeforeClearBusyFlag := by
  intro s t k hs h
  have keep : ∀ {s t : State}, s.Inv ∧ s.Watched → step s = .next t → t.Inv ∧ t.Watched :=
    fun ⟨hI, hW⟩ h => ⟨everyStepKeepsInvariant _ _ hI h, everyStepKeepsBusyGuard _ _ hI hW h⟩
  obtain ⟨-, hW⟩ := runSteps_keeps keep ⟨Inv_of_freshlyReset hs, watched_of_freshlyReset hs⟩ h
  exact hW.guarded

end Sys2Proof.Machine
end

section
/-! Who can influence a step (spec/20_memory.md R71, R72): what stands at the port does not reach the command in progress, and
the module, any function from sample number to bit, enters at the sample step only. -/

namespace Sys2Proof.Machine

variable {s t : State} {f : Nat → Bit}

/-! ### Rows and meanings do not look at the port or at the oracle the state holds -/

/-- The same block with the host's requests and the module changed by `g` and `m`. -/
def State.mapInputs (g : List HostAction → List HostAction) (m : Oracle → Oracle) (s : State) : State :=
  { s with port := g s.port, oracle := m s.oracle }

section MapInputs

variable (g : List HostAction → List HostAction) (m : Oracle → Oracle)

@[simp] theorem State.mapInputs_seq (s : State) : (s.mapInputs g m).seq = s.seq := rfl
@[simp] theorem State.mapInputs_mode (s : State) : (s.mapInputs g m).mode = s.mode := rfl
@[simp] theorem State.mapInputs_ready (s : State) : (s.mapInputs g m).ready = s.ready := rfl

/-- A row of the table, the module given as a function, neither looks at the port and the oracle nor writes them. -/
theorem advanceWith_mapInputs (h : advanceWith f s = .next t) :
    advanceWith f (s.mapInputs g m) = .next (t.mapInputs g m) := by
  cases hq : s.seq
  case P_REST =>
    simp only [advanceWith, State.mapInputs_seq, hq] at h ⊢
    by_cases h0 : s.op = 0
    · rw [if_pos h0] at h
      cases h
      exact if_pos h0
    · rw [if_neg h0] at h
      refine (if_neg h0).trans ?_
      by_cases h2 : s.op = 2
      · rw [if_pos h2] at h
        cases h
        exact if_pos h2
      · rw [if_neg h2] at h
        cases h
  case S_D0 | S_EL0 | R_D =>
    simp only [advanceWith, State.mapInputs_seq, State.mapInputs_mode, hq] at h ⊢
    split at h <;> cases h <;> rfl
  all_goals
    simp only [advanceWith, State.mapInputs_seq, hq, Host.Outcome.next.injEq] at h ⊢
    cases h
    rfl

end MapInputs

/-- Whatever the state, an instruction presents one word, or is refused. -/
theorem exec_presents_or_refuses (i : Instr) :
    (∃ w first, ∀ s, exec i s = present w first s) ∨ ∃ r, ∀ s, exec i s = .refused r := by
  cases i with
  | send rs rw byte =>
    rcases Bit.eq_zero_or_one rw with rfl | rfl
    · exact .inl ⟨_, _, exec_send rs byte⟩
    · exact .inr ⟨_, exec_send_read rs byte⟩
  | irwrite byte => exact .inl ⟨_, _, exec_send 0 byte⟩
  | clear => exact .inl ⟨_, _, exec_send 0 clearByte⟩
  | home => exact .inl ⟨_, _, exec_send 0 homeByte⟩
  | entry d sh => exact .inl ⟨_, _, exec_send 0 (entryByte d sh)⟩
  | dispctl d c k => exact .inl ⟨_, _, exec_send 0 (dispctlByte d c k)⟩
  | shift o d => exact .inl ⟨_, _, exec_send 0 (shiftByte o d)⟩
  | funcset w l => exact .inl ⟨_, _, exec_send 0 (funcsetByte w l)⟩
  | wrdata byte => exact .inl ⟨_, _, exec_send 1 byte⟩
  | rawnib n => exact .inl ⟨_, _, exec_rawnib n⟩
  | poll => exact .inl ⟨_, _, exec_poll⟩
  | reservedSendRead => exact .inr ⟨_, fun _ => rfl⟩
  | reservedRawnibBits => exact .inr ⟨_, fun _ => rfl⟩
  | reservedPollBits => exact .inr ⟨_, fun _ => rfl⟩
  | reservedOp => exact .inr ⟨_, fun _ => rfl⟩

/-- A ready block accepts a word whatever the module is. -/
theorem exec_withOracle {i : Instr} (oracle : Oracle) (hr : s.ready = true) (h : exec i s = .next t) :
    exec i (s.mapInputs id fun _ => oracle) = .next (t.mapInputs id fun _ => oracle) := by
  obtain ⟨w, first, hw⟩ | ⟨r, hrefuse⟩ := exec_presents_or_refuses i
  · rw [hw, present_ready hr, Host.Outcome.next.injEq] at h
    rw [hw, present_ready (by rwa [State.mapInputs_ready]), ← h]
    rfl
  · simp [hrefuse] at h

/-- So does the host's request reach a ready block, whatever the module is. -/
theorem serveHost_withOracle (oracle : Oracle) (hr : s.ready = true) (h : serveHost s = .next t) :
    serveHost (s.mapInputs id fun _ => oracle) = .next (t.mapInputs id fun _ => oracle) := by
  rcases hp : s.port with _ | ⟨w | d | l | op, rest⟩
  case cons.command =>
    rw [serveHost_command hp] at h
    rw [serveHost_command (s := s.mapInputs id _) hp]
    exact exec_withOracle (s := s.withPort rest) oracle hr h
  case nil =>
    rw [serveHost_nothing hp, Host.Outcome.next.injEq] at h
    rw [serveHost_nothing (s := s.mapInputs id _) hp, ← h]
  case cons.delay =>
    rw [serveHost_delay hp, Host.Outcome.next.injEq] at h
    rw [serveHost_delay (s := s.mapInputs id _) hp, ← h]
    rfl
  case cons.enter =>
    rw [serveHost_enter hp, Host.Outcome.next.injEq] at h
    rw [serveHost_enter (s := s.mapInputs id _) hp, ← h]
    rfl
  case cons.call =>
    rw [serveHost_call hp, Host.Outcome.next.injEq] at h
    rw [serveHost_call (s := s.mapInputs id _) hp, ← h]
    rfl

/-! ### The step with the module given as a function -/

theorem stepWith_reset (hr : s.resetAsserted = true) (f : Nat → Bit) :
    stepWith f s = .next (takeReset s.resetSampled) := by
  simp [stepWith, hr]

theorem stepWith_busy (hr : s.resetAsserted = false) (hq : s.ready = false) (f : Nat → Bit) :
    stepWith f s = advanceWith f s.resetSampled := by
  have hq' : s.resetSampled.ready = false := hq
  simp [stepWith, hr, runBlockWith, hq']

theorem stepWith_ready (hr : s.resetAsserted = false) (hq : s.ready = true) (f : Nat → Bit) :
    stepWith f s = serveHost s.resetSampled := by
  have hq' : s.resetSampled.ready = true := hq
  simp [stepWith, hr, runBlockWith, hq']

/-- A step with a given module does not look at the oracle the state holds. -/
theorem stepWith_withOracle (oracle : Oracle) (h : stepWith f s = .next t) :
    stepWith f { s with oracle := oracle } = .next { t with oracle := oracle } := by
  cases hr : s.resetAsserted with
  | true =>
    rw [stepWith_reset hr, Host.Outcome.next.injEq] at h
    rw [stepWith_reset (s := { s with oracle := oracle }) hr, ← h]
    rfl
  | false =>
    cases hq : s.ready with
    | true =>
      rw [stepWith_ready hr hq] at h
      rw [stepWith_ready (s := { s with oracle := oracle }) hr hq]
      exact serveHost_withOracle (s := s.resetSampled) oracle hq h
    | false =>
      rw [stepWith_busy hr hq] at h
      rw [stepWith_busy (s := { s with oracle := oracle }) hr hq]
      exact advanceWith_mapInputs (s := s.resetSampled) id (fun _ => oracle) h

/-- Settles O51: a reset keeps the port, and a row of the table does not look at it. -/
theorem portDoesNotReachCommandInProgress : Obligations.PortDoesNotReachCommandInProgress := by
  rintro s t s' hst hbusy h
  rw [← hst]
  cases hr : s.resetAsserted with
  | true =>
    rw [step_reset hr, Host.Outcome.next.injEq] at h
    rw [step_reset (s := { s with port := t.port }) hr, ← h]
    rfl
  | false =>
    have ha : advanceWith s.oracle.answer s.resetSampled = .next s' := (stepWith_busy hr hbusy _).symm.trans h
    exact (stepWith_busy (s := { s with port := t.port }) hr hbusy _).trans
      (advanceWith_mapInputs (fun _ => t.port) id ha)

/-- Settles O52: away from `P_SMP`, and in a reset, a step with the one module is a step with the other. -/
theorem moduleEntersOnlyAtSampleStep : Obligations.ModuleEntersOnlyAtSampleStep := by
  rintro s t s' hst hno h
  rw [← hst]
  have hsame : stepWith t.oracle.answer s = stepWith s.oracle.answer s := by
    rcases hno with hq | hr
    · exact stepWith_congr fun hq' => absurd hq' hq
    · rw [stepWith_reset hr, stepWith_reset hr]
  exact stepWith_withOracle t.oracle (hsame.trans h)

/-! ### Every function is a module (R72) -/

/-- The oracle that answers as `f` does to samples 1 to `n`. -/
def Oracle.upTo (f : Nat → Bit) (n : Nat) : Oracle where
  first := (List.range n).map fun i => f (i + 1)
  rest := .cycle 0 []

theorem Oracle.answer_upTo (f : Nat → Bit) {n i : Nat} (h : i < n) : (Oracle.upTo f n).answer (i + 1) = f (i + 1) :=
  Oracle.answer_first (by simp [Oracle.upTo, h])

/-- As long as the samples are among those on which the oracle agrees with `f`, the machine's run is the run with `f`. -/
theorem runSteps_eq_runWith {n : Nat} (k : Nat) (s : State) (ho : s.oracle = Oracle.upTo f n)
    (hk : s.sampleCount + k ≤ n) : runSteps k s = runWith f k s := by
  induction k generalizing s with
  | zero => rfl
  | succ k ih =>
    have hstep : step s = stepWith f s :=
      stepWith_congr fun _ => ho ▸ Oracle.answer_upTo f (by omega)
    cases hs : stepWith f s with
    | next s' =>
      rw [runSteps_of_step (hstep.trans hs), runWith_of_stepWith hs]
      obtain ⟨ho', hn⟩ := step_keeps_oracle (hstep.trans hs)
      exact ih s' (ho'.trans ho) (by omega)
    | fault r => simp only [runSteps, runWith, hstep, hs]
    | refused r => simp only [runSteps, runWith, hstep, hs]

/-- The step of `P_SMP` with the module `f`. -/
theorem stepWith_sample (hq : s.seq = .P_SMP) (hr : s.resetAsserted = false) (f : Nat → Bit) :
    stepWith f s = .next ((smp (f (s.sampleCount + 1)) s.resetSampled).goto .P_EL) := by
  have hq' : s.resetSampled.seq = .P_SMP := hq
  rw [stepWith_busy hr ((not_ready_iff s).mpr (by rw [hq]; nofun))]
  simp only [advanceWith, hq', sampleCount_resetSampled]

/-- Settles O53: the row of `P_SMP`, the answers after a reset, and an oracle that lists the first answers of `f`. -/
theorem moduleIsAnyFunctionOfTheSampleNumber : Obligations.ModuleIsAnyFunctionOfTheSampleNumber := by
  refine ⟨fun f s hq hr => stepWith_sample hq hr f, fun s t => ⟨rfl, fun hr h => ?_⟩, fun f n => ?_⟩
  · rw [step_reset hr, Host.Outcome.next.injEq] at h
    rw [← h]
    exact ⟨rfl, answer_takeReset _⟩
  · exact ⟨Oracle.upTo f n, fun s k hk => runSteps_eq_runWith k _ rfl hk⟩

end Sys2Proof.Machine
end

section
/-! Commands in progress return when the module is eventually ready (spec/20_memory.md R72, spec/40_bus_transport.md R112). -/

namespace Sys2Proof.Machine

variable {s t : State} {e : PinEvent} {evs : List PinEvent}

/-! ### Rows and the environment -/

theorem Emits.environment (h : Emits s e t) : t.port = s.port ∧ t.resetIn = s.resetIn := by
  cases h <;> exact ⟨rfl, rfl⟩

/-- A row leaves the host's requests and the reset input alone. -/
theorem advance_keeps_environment (h : advance s = .next t) : t.port = s.port ∧ t.resetIn = s.resetIn := by
  obtain ⟨evs, hdo⟩ := advance_does h
  cases hdo with
  | move => exact ⟨rfl, rfl⟩
  | one he => exact he.environment
  | last he _ => exact he.environment

/-- A row has a successor, if the invariant holds. -/
theorem State.Inv.advances (hI : s.Inv) : ∃ t, advance s = .next t := by
  rcases advance_next_or_fault s with h | ⟨_, hq, h0, h2⟩
  · exact h
  · rcases hI.pollLatch (by rw [hq]; rfl) with ⟨h, _⟩ | h
    · exact absurd h h0
    · exact absurd h h2

/-! ### The order of the rows -/

/-- The states of `SEQ`, those near to the return of the command first. Each row but that of `P_EH`, where a turn of the poll's
loop begins, leads to an earlier state in this list. -/
def Seq.fromReturn : List Seq :=
  [.IDLE, .R_EL, .R_PW, .R_EH, .R_D, .R_DIR, .R_CTRL,
    .S_EL1, .S_PW1, .S_EH1, .S_D1, .S_EL0, .S_PW0, .S_EH0, .S_D0, .S_DIR, .S_CTRL,
    .P_REST, .P_EH, .P_TEST, .P_DEL, .P_DPW, .P_DEH, .P_EL, .P_SMP, .P_PW, .P_CTRL, .P_CFG]

/-- How far a state is from the return in that list. -/
def Seq.distance (q : Seq) : Nat := Seq.fromReturn.idxOf q

theorem advance_distance (h : advance s = .next t) (hidle : s.seq ≠ .IDLE) (hloop : s.seq ≠ .P_EH) :
    t.seq.distance < s.seq.distance := by
  apply advance_elim h
  case IDLE => exact fun hq _ => absurd hq hidle
  case P_EH => exact fun hq _ => absurd hq hloop
  all_goals
    intro hq
    intros
    subst t
    simp only [hq, State.goto_seq, ret_seq]
    decide

/-! ### Runs to the return -/

/-- The command in progress returns, and the host's requests are where they were. -/
def State.Returns (s : State) : Prop := ∃ k t, runSteps k s = .next t ∧ t.ready = true ∧ t.port = s.port

theorem returns_of_idle (h : s.seq = .IDLE) : s.Returns := ⟨0, s, rfl, (ready_iff s).mpr h, rfl⟩

/-- A command returns if it does so after some steps that leave the port alone. -/
theorem returns_of_runSteps {k : Nat} (h : runSteps k s = .next t) (hport : t.port = s.port) (ht : t.Returns) :
    s.Returns := by
  obtain ⟨n, u, hrun, hready, hu⟩ := ht
  exact ⟨k + n, u, (runSteps_add_of_next h).trans hrun, hready, hu.trans hport⟩

/-- The invariant holds at the end of every run. -/
theorem runSteps_keeps_Inv {k : Nat} (hI : s.Inv) (h : runSteps k s = .next t) : t.Inv :=
  runSteps_keeps (P := State.Inv) (everyStepKeepsInvariant _ _) hI h

/-- The loop comes out: a turn takes one of the module's answers, and a 0 is among those to come. -/
theorem returns_of_loop {n : Nat} (hI : s.Inv) (hr : s.resetIn = []) (hq : s.seq = .P_EH) (hn : s.answer n = 0)
    (hrest : ∀ u : State, u.Inv → u.resetIn = [] → u.oracle = s.oracle → u.seq = .P_REST → u.Returns) : s.Returns := by
  induction n generalizing s with
  | zero =>
    have hrun := runSteps_pollIteration hq hr 0
    have hclear : (pollIteration s).stillBusy = false := by simp [State.stillBusy, hn]
    rw [hclear, runSteps_zero] at hrun
    refine returns_of_runSteps hrun (by simp) (hrest _ (runSteps_keeps_Inv hI hrun) (by simpa using hr) (by simp) ?_)
    rfl
  | succ n ih =>
    have hrun := runSteps_pollIteration hq hr 0
    rw [runSteps_zero] at hrun
    refine returns_of_runSteps hrun (by simp) ?_
    have hI' := runSteps_keeps_Inv hI hrun
    cases hbusy : (pollIteration s).stillBusy with
    | false =>
      rw [hbusy] at hI'
      exact hrest _ hI' (by simpa using hr) (by simp) rfl
    | true =>
      rw [hbusy] at hI'
      exact ih hI' (by simpa using hr) rfl (by simpa [answer_pollIteration] using hn) (by simpa using hrest)

/-- By induction on the distance to the return; at `P_EH` the loop is run out. -/
theorem returns_of_eventuallyReady (d : Nat) : ∀ s : State, s.seq.distance = d → s.Inv → s.resetIn = [] →
    s.oracle.ModuleEventuallyReady → s.Returns := by
  induction d using Nat.strong_induction_on with
  | _ d ih =>
    rintro s rfl hI hr ho
    by_cases hidle : s.seq = .IDLE
    · exact returns_of_idle hidle
    by_cases hloop : s.seq = .P_EH
    · obtain ⟨m, hm, hanswer⟩ := ho (s.sampleCount + 1)
      obtain ⟨n, rfl⟩ := Nat.exists_eq_add_of_le hm
      refine returns_of_loop (n := n) hI hr hloop hanswer fun u hI' hr' ho' hq' => ?_
      exact ih _ (by rw [hloop, hq']; decide) u rfl hI' hr' (ho' ▸ ho)
    · obtain ⟨t, ha⟩ := hI.advances
      obtain ⟨hport, hresetIn⟩ := advance_keeps_environment ha
      have hstep : runSteps 1 s = .next t := runSteps_of_advance hr hidle ha
      refine returns_of_runSteps hstep hport (ih _ (advance_distance ha hidle hloop) t rfl ?_ ?_ ?_)
      · exact advance_keeps_Inv hI ha
      · exact hresetIn.trans hr
      · exact (advance_keeps_oracle ha).1 ▸ ho

/-- Settles O48: the run to the return, on which the invariant is kept. -/
theorem commandsReturnWhenModuleIsEventuallyReady : Obligations.CommandsReturnWhenModuleIsEventuallyReady := by
  intro s hI _ hr ho
  obtain ⟨k, t, hrun, hready, hport⟩ := returns_of_eventuallyReady _ s rfl hI hr ho
  exact ⟨k, t, hrun, hready, runSteps_keeps_Inv hI hrun, hport⟩

end Sys2Proof.Machine
end

section
/-! `SEND`s lined up at the port are carried out in the order of issue (spec/20_memory.md R65, R68, spec/40_bus_transport.md
R112 to R115): the run of one poll, of one transfer, of one `SEND`, and of a list of them. -/

namespace Sys2Proof.Machine

variable {s : State}

/-! ### A poll of any length (R112) -/

/-- One turn of the loop, with the lines as a poll has them. -/
theorem pollIteration_eq (hrs : s.rs = 0) (hrw : s.rw = 1) (hddir : s.ddir = 0x7F) :
    pollIteration s = { s with
      e := 0
      bf := s.answer 0
      pins := s.pins ++ iterationEvents s.mode s.params.tPW (s.answer 0)
      bus := s.bus ++ iterationCycles s.mode s.dout (s.answer 0) } := by
  cases hm : s.mode <;>
    apply State.ext <;>
      simp [pollIteration, hm, pulse, pulseSample, iterationEvents, iterationCycles, rd, rdX, hrs, hrw, hddir]

/-- The state in which a poll leaves its loop, after `busy` busy samples and a clear one. -/
def State.loopLeft (s : State) (busy : Nat) : State :=
  { s with
    e := 0
    bf := 0
    seq := .P_REST
    pins := s.pins ++ (List.replicate busy (iterationEvents s.mode s.params.tPW 1)).flatten
      ++ iterationEvents s.mode s.params.tPW 0
    bus := s.bus ++ pollCycles s.mode s.dout busy }

@[simp] theorem State.loopLeft_op (s : State) (busy : Nat) : (s.loopLeft busy).op = s.op := rfl
@[simp] theorem State.loopLeft_crs (s : State) (busy : Nat) : (s.loopLeft busy).crs = s.crs := rfl
@[simp] theorem State.loopLeft_crw (s : State) (busy : Nat) : (s.loopLeft busy).crw = s.crw := rfl
@[simp] theorem State.loopLeft_cdata (s : State) (busy : Nat) : (s.loopLeft busy).cdata = s.cdata := rfl
@[simp] theorem State.loopLeft_dout (s : State) (busy : Nat) : (s.loopLeft busy).dout = s.dout := rfl
@[simp] theorem State.loopLeft_ddir (s : State) (busy : Nat) : (s.loopLeft busy).ddir = s.ddir := rfl
@[simp] theorem State.loopLeft_dpue (s : State) (busy : Nat) : (s.loopLeft busy).dpue = s.dpue := rfl
@[simp] theorem State.loopLeft_rs (s : State) (busy : Nat) : (s.loopLeft busy).rs = s.rs := rfl
@[simp] theorem State.loopLeft_rw (s : State) (busy : Nat) : (s.loopLeft busy).rw = s.rw := rfl
@[simp] theorem State.loopLeft_e (s : State) (busy : Nat) : (s.loopLeft busy).e = 0 := rfl
@[simp] theorem State.loopLeft_aux (s : State) (busy : Nat) : (s.loopLeft busy).aux = s.aux := rfl
@[simp] theorem State.loopLeft_bf (s : State) (busy : Nat) : (s.loopLeft busy).bf = 0 := rfl
@[simp] theorem State.loopLeft_seq (s : State) (busy : Nat) : (s.loopLeft busy).seq = .P_REST := rfl
@[simp] theorem State.loopLeft_params (s : State) (busy : Nat) : (s.loopLeft busy).params = s.params := rfl
@[simp] theorem State.loopLeft_mode (s : State) (busy : Nat) : (s.loopLeft busy).mode = s.mode := rfl
@[simp] theorem State.loopLeft_port (s : State) (busy : Nat) : (s.loopLeft busy).port = s.port := rfl
@[simp] theorem State.loopLeft_life (s : State) (busy : Nat) : (s.loopLeft busy).life = s.life := rfl
@[simp] theorem State.loopLeft_oracle (s : State) (busy : Nat) : (s.loopLeft busy).oracle = s.oracle := rfl
@[simp] theorem State.loopLeft_resetIn (s : State) (busy : Nat) : (s.loopLeft busy).resetIn = s.resetIn := rfl
@[simp] theorem State.loopLeft_draws (s : State) (busy : Nat) : (s.loopLeft busy).draws = s.draws := rfl
@[simp] theorem State.loopLeft_pins (s : State) (busy : Nat) : (s.loopLeft busy).pins =
    s.pins ++ (List.replicate busy (iterationEvents s.mode s.params.tPW 1)).flatten
      ++ iterationEvents s.mode s.params.tPW 0 := rfl
@[simp] theorem State.loopLeft_bus (s : State) (busy : Nat) :
    (s.loopLeft busy).bus = s.bus ++ pollCycles s.mode s.dout busy := rfl

/-- The loop runs until the first clear sample. -/
theorem runSteps_pollLoop {busy : Nat} (k : Nat) (hq : s.seq = .P_EH) (hr : s.resetIn = [])
    (hrs : s.rs = 0) (hrw : s.rw = 1) (hddir : s.ddir = 0x7F) (hready : s.ModuleReadyAfter busy) :
    runSteps (iterationSteps s.mode * (busy + 1) + k) s = runSteps k (s.loopLeft busy) := by
  induction busy generalizing s with
  | zero =>
    have hclear : s.answer 0 = 0 := hready.2
    rw [Nat.zero_add, Nat.mul_one, runSteps_pollIteration hq hr]
    congr 1
    rw [pollIteration_eq hrs hrw hddir]
    simp [hclear, State.stillBusy, State.goto, State.loopLeft, pollCycles]
  | succ busy ih =>
    obtain ⟨hbusy, hclear⟩ := hready
    have h0 : s.answer 0 = 1 := hbusy 0 (Nat.zero_lt_succ _)
    have hstill : (pollIteration s).stillBusy = true := by simp [State.stillBusy, h0]
    have hmode : ((pollIteration s).goto .P_EH).mode = s.mode := by simp [State.mode]
    rw [show iterationSteps s.mode * (busy + 1 + 1) + k =
      iterationSteps s.mode + (iterationSteps s.mode * (busy + 1) + k) by ring, runSteps_pollIteration hq hr, hstill,
      if_pos rfl, ← hmode, ih]
    · rw [pollIteration_eq hrs hrw hddir]
      simp [h0, State.goto, State.loopLeft, pollCycles, List.replicate_succ]
    · rfl
    · simpa using hr
    · rw [pollIteration_eq hrs hrw hddir]; exact hrs
    · rw [pollIteration_eq hrs hrw hddir]; exact hrw
    · rw [pollIteration_eq hrs hrw hddir]; exact hddir
    · exact ⟨fun j hj => by simpa [answer_pollIteration] using hbusy (j + 1) (by omega),
        by simpa [answer_pollIteration] using hclear⟩

/-- From `P_CFG` to `P_REST`. -/
theorem runSteps_poll {busy : Nat} (k : Nat) (hq : s.seq = .P_CFG) (hr : s.resetIn = []) (hddir : s.ddir = 0xFF)
    (hready : s.ModuleReadyAfter busy) :
    runSteps (2 + iterationSteps s.mode * (busy + 1) + k) s =
      runSteps k (((ctl 0 1 (cfg7In s)).goto .P_EH).loopLeft busy) := by
  rw [show 2 + iterationSteps s.mode * (busy + 1) + k = iterationSteps s.mode * (busy + 1) + k + 1 + 1 by ring]
  refine (runSteps_of_advance hr (by rw [hq]; nofun) (advance_P_CFG hq)).trans ?_
  refine (runSteps_of_advance (by simpa using hr) (by simp) (advance_P_CTRL (by simp))).trans ?_
  simp only [ctl_goto, State.goto_goto]
  refine runSteps_pollLoop (s := (ctl 0 1 (cfg7In s)).goto .P_EH) k rfl hr rfl rfl ?_ ?_
  · simp [hddir]
  · exact ⟨fun j hj => by simpa using hready.1 j hj, by simpa using hready.2⟩

/-! ### A transfer (R113, R114) -/

/-- From `S_CTRL` to the return, the rows are the transfer strategy of the mode. -/
theorem runSteps_drive {m : BusMode} (hq : s.seq = .S_CTRL) (hr : s.resetIn = []) (hm : s.mode = m) :
    runSteps (driveSteps m) s = .next (ret (driveByte s.cdata (ctl s.crs s.crw s))) := by
  cases m
  case eightBit =>
    refine (runSteps_of_advance hr (by rw [hq]; nofun) (advance_S_CTRL_eight hq hm)).trans ?_
    refine (runSteps_of_advance (by simpa using hr) (by simp) (advance_S_DIR (by simp))).trans ?_
    refine (runSteps_of_advance (by simpa using hr) (by simp) (advance_S_D0_eight (by simp) (by simpa using hm))).trans ?_
    refine (runSteps_of_advance (by simpa using hr) (by simp) (advance_S_EH0 (by simp))).trans ?_
    refine (runSteps_of_advance (by simpa using hr) (by simp) (advance_S_PW0 (by simp))).trans ?_
    refine (runSteps_of_advance (by simpa using hr) (by simp) (advance_S_EL0_eight (by simp) (by simpa using hm))).trans ?_
    simp [driveByte, hm, driveByte8, memWrite8, pulse]
  case fourBit =>
    refine (runSteps_of_advance hr (by rw [hq]; nofun) (advance_S_CTRL_four hq hm)).trans ?_
    refine (runSteps_of_advance (by simpa using hr) (by simp) (advance_S_D0_four (by simp) (by simpa using hm))).trans ?_
    refine (runSteps_of_advance (by simpa using hr) (by simp) (advance_S_EH0 (by simp))).trans ?_
    refine (runSteps_of_advance (by simpa using hr) (by simp) (advance_S_PW0 (by simp))).trans ?_
    refine (runSteps_of_advance (by simpa using hr) (by simp) (advance_S_EL0_four (by simp) (by simpa using hm))).trans ?_
    refine (runSteps_of_advance (by simpa using hr) (by simp) (advance_S_D1 (by simp))).trans ?_
    refine (runSteps_of_advance (by simpa using hr) (by simp) (advance_S_EH1 (by simp))).trans ?_
    refine (runSteps_of_advance (by simpa using hr) (by simp) (advance_S_PW1 (by simp))).trans ?_
    refine (runSteps_of_advance (by simpa using hr) (by simp) (advance_S_EL1 (by simp))).trans ?_
    simp [driveByte, hm, driveByte4, memWrite4, pulse]

/-- What the transfer of a byte does, with all lines outputs and the lines at `(rs, 0)`. -/
theorem driveByte_eq (byte : Byte) (hrw : s.rw = 0) (hddir : s.ddir = 0xFF) :
    driveByte byte s = { s with
      e := 0
      dout := doutAfter s.mode byte s.dout
      pins := s.pins ++ (driveEvents s.mode s.params.tPW s.rs byte).tail
      bus := s.bus ++ driveCycles s.mode s.rs byte s.dout } := by
  cases hm : s.mode <;>
    apply State.ext <;>
      simp [driveByte, hm, driveByte8, driveByte4, memWrite8, memWrite4, pulse, doutAfter, driveEvents, driveCycles, wr8, wr4,
        hrw, hddir, upperLines_upperLines]

/-! ### One `SEND` (R115) -/

/-- From its acceptance a `SEND` is carried out to the state R115 gives, its poll reading busy any number of times. -/
theorem runSteps_send (busy : Nat) (rs : Bit) (byte : Byte) (hI : s.Inv) (hready : s.ready = true) (hr : s.resetIn = [])
    (hm : s.ModuleReadyAfter busy) :
    runSteps (sendSteps s.mode busy) (accept (sendWord rs 0 byte) .P_CFG s) = .next (sent busy rs byte 0 s) := by
  have hidle := (ready_iff s).mp hready
  have hddir : s.ddir = 0xFF := by rw [hI.direction, hidle]; rfl
  have hdpue : s.dpue = 0x00 := by rw [hI.pullUp, hidle]; rfl
  rw [show sendSteps s.mode busy = 2 + iterationSteps s.mode * (busy + 1) + (driveSteps s.mode + 1) by
    rw [sendSteps, pollSteps]; ring]
  refine (runSteps_poll (s := accept (sendWord rs 0 byte) .P_CFG s) _ rfl hr hddir ?_).trans ?_
  · exact ⟨fun j hj => by simpa using hm.1 j hj, by simpa using hm.2⟩
  refine Eq.trans (runSteps_of_advance hr nofun (advance_P_REST_send rfl (opField_sendWord rs 0 byte))) ?_
  refine Eq.trans (runSteps_drive rfl hr rfl) (congrArg Host.Outcome.next ?_)
  rw [driveByte_eq _ (rwField_sendWord rs 0 byte) ?_]
  · cases hmode : s.mode <;>
      apply State.ext <;>
        simp [sent, hmode, hddir, hdpue, opField_sendWord, rsField_sendWord, rwField_sendWord, byteField_sendWord,
          pollEvents, driveEvents]
  · simp [hddir]

/-! ### What the words of a `SEND` decode to (30_encoding.md R88) -/

theorem funcsetByte_fields : ∀ b : Byte, b &&& 0xE7 = 0x20 →
    funcsetByte (BusMode.ofBit (byteBit b 4)) (LineCount.ofBit (byteBit b 3)) = b := by
  set_option maxRecDepth 100000 in decide

theorem shiftByte_fields : ∀ b : Byte, b &&& 0xF3 = 0x10 →
    shiftByte (ShiftObject.ofBit (byteBit b 3)) (ShiftDirection.ofBit (byteBit b 2)) = b := by
  set_option maxRecDepth 100000 in decide

theorem dispctlByte_fields : ∀ b : Byte, b &&& 0xF8 = 0x08 →
    dispctlByte (DisplayState.ofBit (byteBit b 2)) (CursorState.ofBit (byteBit b 1)) (BlinkState.ofBit (byteBit b 0))
      = b := by
  set_option maxRecDepth 100000 in decide

theorem entryByte_fields : ∀ b : Byte, b &&& 0xFC = 0x04 →
    entryByte (EntryDirection.ofBit (byteBit b 1)) (AutoShift.ofBit (byteBit b 0)) = b := by
  set_option maxRecDepth 100000 in decide

theorem homeByte_eq : ∀ b : Byte, b &&& 0xFF = 0x02 → homeByte = b := by
  set_option maxRecDepth 100000 in decide

theorem clearByte_eq : ∀ b : Byte, b &&& 0xFF = 0x01 → clearByte = b := by
  set_option maxRecDepth 100000 in decide

/-- Whichever instruction a byte is, it is the `SEND` of that byte. -/
theorem exec_decodeInstructionByte (b : Byte) (s : State) : exec (decodeInstructionByte b) s = execSend 0 0 b s := by
  unfold decodeInstructionByte
  split_ifs with hfuncset hshift hdispctl hentry hhome hclear
  · exact congrArg (execSend 0 0 · s) (funcsetByte_fields b hfuncset)
  · exact congrArg (execSend 0 0 · s) (shiftByte_fields b hshift)
  · exact congrArg (execSend 0 0 · s) (dispctlByte_fields b hdispctl)
  · exact congrArg (execSend 0 0 · s) (entryByte_fields b hentry)
  · exact congrArg (execSend 0 0 · s) (homeByte_eq b hhome)
  · exact congrArg (execSend 0 0 · s) (clearByte_eq b hclear)
  · rfl

/-- A block presented with the word of a `SEND` that writes is presented with that `SEND`. -/
theorem exec_decode_sendWord (rs : Bit) (byte : Byte) (s : State) :
    exec (decode (sendWord rs 0 byte)) s = present (sendWord rs 0 byte) .P_CFG s := by
  have hop := opField_sendWord rs 0 byte
  have hrw := rwField_sendWord rs 0 byte
  have hrs := rsField_sendWord rs 0 byte
  rcases Bit.eq_zero_or_one rs with rfl | rfl
  · rw [decode_instructionWrite hop hrw hrs, exec_decodeInstructionByte, byteField_sendWord]
    exact exec_send 0 byte s
  · rw [decode_dataWrite hop hrw hrs, byteField_sendWord]
    exact exec_send 1 byte s

/-! ### A list of `SEND`s (R68) -/

theorem countP_iterationEvents (m : BusMode) (tPW : Nat) (b : Bit) :
    (iterationEvents m tPW b).countP PinEvent.isSample = 1 := by
  cases m <;> rfl

/-- A poll takes one sample more than it reads busy. -/
theorem countP_pollEvents (m : BusMode) (tPW busy : Nat) :
    (pollEvents m tPW busy).countP PinEvent.isSample = busy + 1 := by
  simp [pollEvents, countP_iterationEvents, List.countP_flatten, PinEvent.isSample]

theorem countP_driveEvents (m : BusMode) (tPW : Nat) (rs : Bit) (byte : Byte) :
    (driveEvents m tPW rs byte).countP PinEvent.isSample = 0 := by
  cases m <;> simp [driveEvents, PinEvent.isSample]

theorem sampleCount_sent (busy : Nat) (rs : Bit) (byte : Byte) (aux : Bit) (s : State) :
    (sent busy rs byte aux s).sampleCount = s.sampleCount + (busy + 1) := by
  simp [State.sampleCount, sent, countP_pollEvents, countP_driveEvents, PinEvent.isSample]

/-- The bits a list of polls reads, each poll's busy bits and its clear one. -/
def pollBits (cmds : List (Bit × Byte × Nat)) : List Bit := cmds.flatMap fun c => List.replicate c.2.2 1 ++ [0]

theorem length_pollBits_cons (rs : Bit) (byte : Byte) (busy : Nat) (cmds : List (Bit × Byte × Nat)) :
    (pollBits ((rs, byte, busy) :: cmds)).length = busy + 1 + (pollBits cmds).length := by
  rw [pollBits, List.flatMap_cons, List.length_append, List.length_append, List.length_replicate]
  rfl

/-- The module's answers begin with `bits`. -/
def State.AnswersWith (s : State) (bits : List Bit) : Prop := ∀ j b, bits[j]? = some b → s.answer j = b

/-- The first poll reads the first of the bits. -/
theorem State.AnswersWith.moduleReadyAfter {busy : Nat} {bits : List Bit}
    (h : s.AnswersWith (List.replicate busy 1 ++ [0] ++ bits)) : s.ModuleReadyAfter busy := by
  constructor
  · intro j hj
    exact h j 1 (by simp [List.getElem?_append, hj])
  · exact h busy 0 (by simp)

/-- The polls after the first read the rest. -/
theorem State.AnswersWith.tail {t : State} {busy : Nat} {bits : List Bit}
    (h : s.AnswersWith (List.replicate busy 1 ++ [0] ++ bits)) (ho : t.oracle = s.oracle)
    (hn : t.sampleCount = s.sampleCount + (busy + 1)) : t.AnswersWith bits := by
  intro j b hj
  have hlength : (List.replicate busy (1 : Bit) ++ [0]).length = busy + 1 := by simp
  have hb : s.answer (busy + 1 + j) = b := by
    refine h _ b ?_
    rw [List.getElem?_append_right (by omega), hlength, Nat.add_sub_cancel_left]
    exact hj
  rw [← hb, State.answer, State.answer, ho, hn]
  congr 1
  omega

/-- A ready block takes a `SEND` from the port and carries it out. -/
theorem runSteps_command (busy : Nat) (rs : Bit) (byte : Byte) {rest : List HostAction} (hI : s.Inv)
    (hready : s.ready = true) (hr : s.resetIn = []) (hport : s.port = .command (sendWord rs 0 byte) :: rest)
    (hm : s.ModuleReadyAfter busy) :
    runSteps (sendSteps s.mode busy + 1) s = .next (sent busy rs byte 0 (s.withPort rest)) := by
  have hstep : step s = .next (accept (sendWord rs 0 byte) .P_CFG (s.withPort rest)) := by
    rw [step_ready (resetAsserted_of_nil hr) ((ready_iff s).mp hready), resetSampled_of_nil hr, serveHost_command hport,
      exec_decode_sendWord, present_ready (s := s.withPort rest) hready]
  rw [runSteps_of_step hstep]
  exact runSteps_send (s := s.withPort rest) busy rs byte (Inv_of_environment hI) hready hr
    ⟨fun j hj => by simpa using hm.1 j hj, by simpa using hm.2⟩

/-- Settles O50, by induction on the list: the first `SEND` is carried out, and leaves the rest lined up at a ready block. -/
theorem sendsAreCarriedOutInOrder : Obligations.SendsAreCarriedOutInOrder := by
  intro cmds
  induction cmds with
  | nil =>
    rintro s rest bits hI hready hr hport rfl -
    exact ⟨0, s, rfl, hready, hI, hport, by simp, by simp [sendCycles]⟩
  | cons cmd cmds ih =>
    obtain ⟨rs, byte, busy⟩ := cmd
    rintro s rest bits hI hready hr hport rfl hanswers
    have hanswers : s.AnswersWith (List.replicate busy 1 ++ [0] ++ pollBits cmds) := hanswers
    have hrun := runSteps_command busy rs byte hI hready hr hport hanswers.moduleReadyAfter
    obtain ⟨k, t, hrun', hready', hI', hport', hcount, hbus⟩ := ih (sent busy rs byte 0 (s.withPort _)) rest
      (pollBits cmds) (runSteps_keeps_Inv hI hrun) rfl hr rfl rfl (hanswers.tail rfl (sampleCount_sent ..))
    refine ⟨_, t, (runSteps_add_of_next hrun).trans hrun', hready', hI', hport', ?_, ?_⟩
    · rw [hcount, sampleCount_sent, sampleCount_withPort, Nat.add_assoc]
      exact congrArg (s.sampleCount + ·) (length_pollBits_cons rs byte busy cmds).symm
    · rw [hbus]
      simp [sent, sendCycles]

end Sys2Proof.Machine
end

section
/-! Command words read and written (spec/30_encoding.md R82, R87, R88, R89): every word is put together from its fields, `decode`
and `encode` are inverse to each other, and the reading is that of the most specific row of the opcode table. -/

namespace Sys2Proof

open Machine

/-! ### Words and their fields (R81, R82) -/

/-- A word with `op` 00 is the `SEND` of its own fields. -/
theorem sendWord_fields (w : CmdWord) (h : opField w = 0) : sendWord (rsField w) (rwField w) (byteField w) = w := by
  have hrs : opField w ++ rsField w = w.extractLsb' 9 3 := BitVec.extractLsb'_append_extractLsb'_eq_extractLsb' rfl
  have hrw : w.extractLsb' 9 3 ++ rwField w = w.extractLsb' 8 4 :=
    BitVec.extractLsb'_append_extractLsb'_eq_extractLsb' rfl
  have hop : 0b00#2 = opField w := h.symm
  rw [sendWord_eq_append, hop, hrs, hrw]
  exact (BitVec.extractLsb'_append_extractLsb'_eq_extractLsb' rfl).trans BitVec.extractLsb'_eq_self

theorem opField_append (o : BitVec 2) (p : BitVec 10) : opField (o ++ p) = o := BitVec.extractLsb'_append_eq_left

theorem payloadField_append (o : BitVec 2) (p : BitVec 10) : payloadField (o ++ p) = p :=
  BitVec.extractLsb'_append_eq_right

/-- A word is its operation and its payload. -/
theorem append_payloadField (w : CmdWord) : opField w ++ payloadField w = w :=
  (BitVec.extractLsb'_append_extractLsb'_eq_extractLsb' rfl).trans BitVec.extractLsb'_eq_self

theorem opField_append_nibble (o : BitVec 2) (r : BitVec 6) (n : Nibble) : opField (o ++ r ++ n) = o :=
  (BitVec.extractLsb'_append_eq_of_le (by decide)).trans BitVec.extractLsb'_append_eq_left

theorem rawReservedField_append_nibble (o : BitVec 2) (r : BitVec 6) (n : Nibble) : rawReservedField (o ++ r ++ n) = r :=
  (BitVec.extractLsb'_append_eq_of_le (by decide)).trans BitVec.extractLsb'_append_eq_right

theorem nibbleField_append_nibble (o : BitVec 2) (r : BitVec 6) (n : Nibble) : nibbleField (o ++ r ++ n) = n :=
  BitVec.extractLsb'_append_eq_right

/-- The payload of a `RAWNIB` is six reserved bits and a nibble. -/
theorem append_nibbleField (w : CmdWord) : opField w ++ rawReservedField w ++ nibbleField w = w := by
  have hop : opField w ++ rawReservedField w = w.extractLsb' 4 8 :=
    BitVec.extractLsb'_append_extractLsb'_eq_extractLsb' rfl
  rw [hop]
  exact (BitVec.extractLsb'_append_extractLsb'_eq_extractLsb' rfl).trans BitVec.extractLsb'_eq_self

/-! ### The words with `op` 00, by their levels and byte (R82, R85, R86) -/

theorem encode_send (rs rw : Bit) (byte : Byte) : encode (.send rs rw byte) = sendWord rs rw byte :=
  (sendWord_eq_append rs rw byte).symm

theorem encode_irwrite (byte : Byte) : encode (.irwrite byte) = sendWord 0 0 byte :=
  (sendWord_eq_append 0 0 byte).symm

theorem encode_wrdata (byte : Byte) : encode (.wrdata byte) = sendWord 1 0 byte :=
  (sendWord_eq_append 1 0 byte).symm

theorem encode_reservedSendRead (rs : Bit) (byte : Byte) : encode (.reservedSendRead rs byte) = sendWord rs 1 byte :=
  (sendWord_eq_append rs 1 byte).symm

theorem encode_clear : encode .clear = sendWord 0 0 clearByte := rfl

theorem encode_home : encode .home = sendWord 0 0 homeByte := rfl

theorem encode_entry (direction : EntryDirection) (shift : AutoShift) :
    encode (.entry direction shift) = sendWord 0 0 (entryByte direction shift) := by
  cases direction <;> cases shift <;> rfl

theorem encode_dispctl (display : DisplayState) (cursor : CursorState) (blink : BlinkState) :
    encode (.dispctl display cursor blink) = sendWord 0 0 (dispctlByte display cursor blink) := by
  cases display <;> cases cursor <;> cases blink <;> rfl

theorem encode_shift (object : ShiftObject) (direction : ShiftDirection) :
    encode (.shift object direction) = sendWord 0 0 (shiftByte object direction) := by
  cases object <;> cases direction <;> rfl

theorem encode_funcset (width : BusMode) (lines : LineCount) :
    encode (.funcset width lines) = sendWord 0 0 (funcsetByte width lines) := by
  cases width <;> cases lines <;> rfl

/-! ### What a word decodes to, by what it is put together from (R87, R88) -/

theorem decode_instructionWord (byte : Byte) : decode (sendWord 0 0 byte) = decodeInstructionByte byte := by
  rw [decode_instructionWrite (opField_sendWord ..) (rwField_sendWord ..) (rsField_sendWord ..), byteField_sendWord]

theorem decode_dataWord (byte : Byte) : decode (sendWord 1 0 byte) = .wrdata byte := by
  rw [decode_dataWrite (opField_sendWord ..) (rwField_sendWord ..) (rsField_sendWord ..), byteField_sendWord]

theorem decode_readWord (rs : Bit) (byte : Byte) : decode (sendWord rs 1 byte) = .reservedSendRead rs byte := by
  rw [decode_sendRead (opField_sendWord ..) (rwField_sendWord ..), rsField_sendWord, byteField_sendWord]

theorem and_0xFF (b : Byte) : b &&& 0xFF = b := BitVec.and_allOnes

/-- The bytes the encoder never builds are those that no pattern of R88 fits. -/
theorem isEncoderByte_eq_false_iff (b : Byte) : isEncoderByte b = false ↔
    b &&& 0xE7 ≠ 0x20 ∧ b &&& 0xF3 ≠ 0x10 ∧ b &&& 0xF8 ≠ 0x08 ∧ b &&& 0xFC ≠ 0x04 ∧ b &&& 0xFF ≠ 0x02 ∧
    b &&& 0xFF ≠ 0x01 := by
  rw [and_0xFF]
  simp [isEncoderByte, and_assoc]

theorem decodeInstructionByte_eq_irwrite_iff (b : Byte) :
    decodeInstructionByte b = .irwrite b ↔ isEncoderByte b = false := by
  unfold decodeInstructionByte
  split_ifs <;> simp_all [isEncoderByte_eq_false_iff]

/-! ### Decoding after encoding -/

/-- Settles O2, by the constructors: the operands are the fields of the word, and the side condition of the row sends the
decoder to it. -/
theorem decodeAfterEncodeIsIdentity : Obligations.DecodeAfterEncodeIsIdentity := by
  intro i hwf hsend
  cases i with
  | send => exact absurd rfl hsend
  | irwrite byte =>
    rw [encode_irwrite, decode_instructionWord, decodeInstructionByte_eq_irwrite_iff]
    simpa [Instr.wf] using hwf
  | clear | home | poll => rfl
  | entry direction shift => cases direction <;> cases shift <;> rfl
  | dispctl display cursor blink => cases display <;> cases cursor <;> cases blink <;> rfl
  | shift object direction => cases object <;> cases direction <;> rfl
  | funcset width lines => cases width <;> cases lines <;> rfl
  | wrdata byte => rw [encode_wrdata, decode_dataWord]
  | rawnib n =>
    refine (decode_rawnib (opField_append_nibble 1 0 n) (rawReservedField_append_nibble 1 0 n)).trans ?_
    exact congrArg Instr.rawnib (nibbleField_append_nibble 1 0 n)
  | reservedSendRead rs byte => rw [encode_reservedSendRead, decode_readWord]
  | reservedRawnibBits reserved n =>
    have hop : opField (encode (.reservedRawnibBits reserved n)) = 1 := opField_append_nibble 1 reserved n
    have hreserved : rawReservedField (encode (.reservedRawnibBits reserved n)) = reserved :=
      rawReservedField_append_nibble 1 reserved n
    rw [decode_rawnibBits hop (by rw [hreserved]; simpa [Instr.wf] using hwf), hreserved]
    exact congrArg (Instr.reservedRawnibBits reserved) (nibbleField_append_nibble 1 reserved n)
  | reservedPollBits reserved =>
    have hop : opField (encode (.reservedPollBits reserved)) = 2 := opField_append 2 reserved
    have hpayload : payloadField (encode (.reservedPollBits reserved)) = reserved := payloadField_append 2 reserved
    rw [decode_pollBits hop (by rw [hpayload]; simpa [Instr.wf] using hwf), hpayload]
  | reservedOp payload =>
    exact (decode_op3 (opField_append 3 payload)).trans (congrArg Instr.reservedOp (payloadField_append 3 payload))

/-! ### Encoding after decoding -/

/-- `i` is a reading of `w`: it is well formed, not of the generic row, and `w` is its word. -/
def Instr.Reads (i : Instr) (w : CmdWord) : Prop := encode i = w ∧ i.wf = true ∧ i.mnemonic ≠ .SEND

/-- By the six patterns: the operands are the bits that the pattern leaves open. -/
theorem decodeInstructionByte_reads (b : Byte) : (decodeInstructionByte b).Reads (sendWord 0 0 b) := by
  unfold decodeInstructionByte
  split_ifs with hfuncset hshift hdispctl hentry hhome hclear
  · exact ⟨(encode_funcset _ _).trans (congrArg (sendWord 0 0) (funcsetByte_fields b hfuncset)), rfl, nofun⟩
  · exact ⟨(encode_shift _ _).trans (congrArg (sendWord 0 0) (shiftByte_fields b hshift)), rfl, nofun⟩
  · exact ⟨(encode_dispctl _ _ _).trans (congrArg (sendWord 0 0) (dispctlByte_fields b hdispctl)), rfl, nofun⟩
  · exact ⟨(encode_entry _ _).trans (congrArg (sendWord 0 0) (entryByte_fields b hentry)), rfl, nofun⟩
  · exact ⟨encode_home.trans (congrArg (sendWord 0 0) (homeByte_eq b hhome)), rfl, nofun⟩
  · exact ⟨encode_clear.trans (congrArg (sendWord 0 0) (clearByte_eq b hclear)), rfl, nofun⟩
  · have hb : isEncoderByte b = false :=
      (isEncoderByte_eq_false_iff b).mpr ⟨hfuncset, hshift, hdispctl, hentry, hhome, hclear⟩
    exact ⟨encode_irwrite b, congrArg (!·) hb, nofun⟩

theorem decode_sendWord_reads (rs rw : Bit) (byte : Byte) : (decode (sendWord rs rw byte)).Reads (sendWord rs rw byte) := by
  rcases Bit.eq_zero_or_one rw with rfl | rfl
  · rcases Bit.eq_zero_or_one rs with rfl | rfl
    · rw [decode_instructionWord]
      exact decodeInstructionByte_reads byte
    · rw [decode_dataWord]
      exact ⟨encode_wrdata byte, rfl, nofun⟩
  · rw [decode_readWord]
    exact ⟨encode_reservedSendRead rs byte, rfl, nofun⟩

/-- Settles O3, by the fields that the decoder reads: each arm's instruction writes them back. -/
theorem encodeAfterDecodeIsIdentity : Obligations.EncodeAfterDecodeIsIdentity := by
  intro w
  change (decode w).Reads w
  rcases opField_cases w with h | h | h | h
  · rw [← sendWord_fields w h]
    exact decode_sendWord_reads _ _ _
  · have hw := append_nibbleField w
    rw [h] at hw
    by_cases hr : rawReservedField w = 0
    · rw [decode_rawnib h hr]
      rw [hr] at hw
      exact ⟨hw, rfl, nofun⟩
    · rw [decode_rawnibBits h hr]
      exact ⟨hw, by simpa [Instr.wf] using hr, nofun⟩
  · have hw := append_payloadField w
    rw [h] at hw
    by_cases hp : payloadField w = 0
    · rw [decode_poll h hp]
      rw [hp] at hw
      exact ⟨hw, rfl, nofun⟩
    · rw [decode_pollBits h hp]
      exact ⟨hw, by simpa [Instr.wf] using hp, nofun⟩
  · have hw := append_payloadField w
    rw [h] at hw
    rw [decode_op3 h]
    exact ⟨hw, rfl, nofun⟩

/-! ### Words written out, and the bytes without a name (R86, R89) -/

/-- Settles O1: the decoder's answers to fourteen words. -/
theorem specWordsDecodeAsWritten : Obligations.SpecWordsDecodeAsWritten := by
  unfold Obligations.SpecWordsDecodeAsWritten
  decide

/-- The list of R89. -/
theorem isEncoderByte_eq_false_iff_listed : ∀ b : Byte, isEncoderByte b = false ↔
    (b = 0x00 ∨ b = 0x03 ∨ (0x10 ≤ b ∧ b ≤ 0x1F ∧ b &&& 0x03 ≠ 0) ∨ (0x20 ≤ b ∧ b ≤ 0x3F ∧ b &&& 0x07 ≠ 0) ∨
      0x40 ≤ b) := by
  set_option maxRecDepth 100000 in decide

/-- Settles O5: the bytes that fall to `IRWRITE` are those that the encoder never builds, and R89 lists these. -/
theorem unnamedBytesDecodeToIrwrite : Obligations.UnnamedBytesDecodeToIrwrite := by
  intro b
  rw [decode_instructionWord, decodeInstructionByte_eq_irwrite_iff]
  exact isEncoderByte_eq_false_iff_listed b

/-! ### The most specific row (R88) -/

/-- The word of every well-formed instruction lies in its own row. -/
theorem ownRow : ∀ i : Instr, Laws.OwnRow.Statement i
  | .send rs rw byte => Laws.OwnRow.send rs rw byte
  | .irwrite byte => Laws.OwnRow.irwrite byte
  | .clear => Laws.OwnRow.clear
  | .home => Laws.OwnRow.home
  | .entry direction shift => Laws.OwnRow.entry direction shift
  | .dispctl display cursor blink => Laws.OwnRow.dispctl display cursor blink
  | .shift object direction => Laws.OwnRow.shift object direction
  | .funcset width lines => Laws.OwnRow.funcset width lines
  | .wrdata byte => Laws.OwnRow.wrdata byte
  | .rawnib n => Laws.OwnRow.rawnib n
  | .poll => Laws.OwnRow.poll
  | .reservedSendRead rs byte => Laws.OwnRow.reservedSendRead rs byte
  | .reservedRawnibBits reserved n => Laws.OwnRow.reservedRawnibBits reserved n
  | .reservedPollBits reserved => Laws.OwnRow.reservedPollBits reserved
  | .reservedOp payload => Laws.OwnRow.reservedOp payload

theorem fits_iff {r : OpcodeRow} {w : CmdWord} : r.fits w = true ↔ w &&& r.mask = r.value := beq_iff_eq

/-- Two rows agree in the bits that both look at. -/
def OpcodeRow.meets (r r' : OpcodeRow) : Bool := r.value &&& r'.mask == r'.value &&& r.mask

theorem meets_of_fits {r r' : OpcodeRow} {w : CmdWord} (h : r.fits w = true) (h' : r'.fits w = true) :
    r.meets r' = true := by
  rw [fits_iff] at h h'
  rw [OpcodeRow.meets, ← h, ← h', BitVec.and_assoc, BitVec.and_assoc, BitVec.and_comm r.mask, beq_self_eq_true]

/-- The rows that take words out of a row by being more specific. -/
def Mnemonic.narrower : Mnemonic → List Mnemonic
  | .SEND => [.IRWRITE, .CLEAR, .HOME, .ENTRY, .DISPCTL, .SHIFT, .FUNCSET, .WRDATA]
  | .IRWRITE => [.CLEAR, .HOME, .ENTRY, .DISPCTL, .SHIFT, .FUNCSET]
  | .RESERVED_RAWNIB_BITS => [.RAWNIB]
  | .RESERVED_POLL_BITS => [.POLL]
  | .CLEAR | .HOME | .ENTRY | .DISPCTL | .SHIFT | .FUNCSET | .WRDATA | .RAWNIB | .POLL | .RESERVED_SEND_READ
  | .RESERVED_OP => []

/-- Two rows of the table that meet are nested, and the inner one is the more specific. -/
theorem rows_nested : ∀ r ∈ opcodeRows, ∀ r' ∈ opcodeRows, r.meets r' = true →
    r' = r ∨ r'.specificity < r.specificity ∨ r'.mnemonic ∈ r.mnemonic.narrower := by
  set_option maxRecDepth 100000 in decide

/-- A mnemonic has one row. -/
theorem row_unique : ∀ r ∈ opcodeRows, ∀ r' ∈ opcodeRows, r.mnemonic = r'.mnemonic → r = r' := by
  set_option maxRecDepth 100000 in decide

section Narrower

variable {r : OpcodeRow} {w : CmdWord}

/-- The rows inside `IRWRITE` hold the encoder's bytes. -/
theorem isEncoderByte_of_fits (hr : r ∈ opcodeRows) (hm : r.mnemonic ∈ Mnemonic.IRWRITE.narrower) (h : r.fits w = true) :
    isEncoderByte (byteField w) = true := by
  have hrows : ∀ r ∈ opcodeRows, r.mnemonic ∈ Mnemonic.IRWRITE.narrower → ∀ b : Byte,
      b &&& byteField r.mask = byteField r.value → isEncoderByte b = true := by
    set_option maxRecDepth 100000 in decide
  exact hrows r hr hm (byteField w) (BitVec.extractLsb'_and.symm.trans (congrArg byteField (fits_iff.mp h)))

/-- The row `RAWNIB` asks for 0 in the reserved bits. -/
theorem rawReservedField_of_fits (hr : r ∈ opcodeRows) (hm : r.mnemonic = .RAWNIB) (h : r.fits w = true) :
    rawReservedField w = 0 := by
  obtain rfl : r = ⟨.RAWNIB, 0xFF0, 0x400⟩ := row_unique r hr _ (by decide) hm
  have hfield : rawReservedField w &&& BitVec.allOnes 6 = 0 :=
    BitVec.extractLsb'_and.symm.trans (congrArg rawReservedField (fits_iff.mp h))
  rwa [BitVec.and_allOnes] at hfield

/-- The row `POLL` asks for 0 in the payload. -/
theorem payloadField_of_fits (hr : r ∈ opcodeRows) (hm : r.mnemonic = .POLL) (h : r.fits w = true) :
    payloadField w = 0 := by
  obtain rfl : r = ⟨.POLL, 0xFFF, 0x800⟩ := row_unique r hr _ (by decide) hm
  have hfield : payloadField w &&& BitVec.allOnes 10 = 0 :=
    BitVec.extractLsb'_and.symm.trans (congrArg payloadField (fits_iff.mp h))
  rwa [BitVec.and_allOnes] at hfield

/-- No narrower row fits a word that an instruction is a reading of: the side condition of `Instr.wf` keeps it out. -/
theorem not_fits_of_narrower {i : Instr} (hi : i.Reads w) (hr : r ∈ opcodeRows)
    (hm : r.mnemonic ∈ i.mnemonic.narrower) : r.fits w ≠ true := by
  obtain ⟨rfl, hwf, hsend⟩ := hi
  intro h
  cases i with
  | send => exact hsend rfl
  | irwrite byte =>
    have hbyte := isEncoderByte_of_fits hr hm h
    rw [encode_irwrite, byteField_sendWord] at hbyte
    simp [Instr.wf, hbyte] at hwf
  | reservedRawnibBits reserved n =>
    have hreserved : reserved = 0 := (rawReservedField_append_nibble 1 reserved n).symm.trans
      (rawReservedField_of_fits hr (List.mem_singleton.mp hm) h)
    simp [Instr.wf, hreserved] at hwf
  | reservedPollBits reserved =>
    have hreserved : reserved = 0 := (payloadField_append 2 reserved).symm.trans
      (payloadField_of_fits hr (List.mem_singleton.mp hm) h)
    simp [Instr.wf, hreserved] at hwf
  | _ => cases hm

end Narrower

/-- Settles O4: the row is the decoded instruction's own; every other row that fits is nested with it, and is not inside
it. -/
theorem decodeGivesMostSpecificRow : Obligations.DecodeGivesMostSpecificRow := by
  intro w
  have hreads : (decode w).Reads w := encodeAfterDecodeIsIdentity w
  have ⟨hw, hwf, _⟩ := hreads
  obtain ⟨r, hr, hm, hfits⟩ := ownRow (decode w) hwf
  rw [hw] at hfits
  refine ⟨r, hr, hfits, hm.symm, fun r' hr' hfits' => ?_⟩
  rcases rows_nested r hr r' hr' (meets_of_fits hfits hfits') with h | h | h
  · exact .inl h
  · exact .inr h
  · exact absurd hfits' (not_fits_of_narrower hreads hr' (hm ▸ h))

end Sys2Proof
end

section
/-! What command words do (spec/30_encoding.md R87, R88, R89, spec/60_exceptions.md R191): a `SEND` and the named form of its word are
presented alike, a named form that is presented as a `SEND` delivers its byte, and the reserved words are refused. -/

namespace Sys2Proof.Machine

variable {s : State}

/-- Settles O6: both are presented at the port with the word of the `SEND`. -/
theorem sendRunsAsItsNamedForm : Obligations.SendRunsAsItsNamedForm := by
  intro rs byte s
  rw [encode_send, exec_send, exec_decode_sendWord]

/-- What is presented with the word of a `SEND` transfers that `SEND`'s byte. -/
theorem delivers_of_exec {i : Instr} {rs : Bit} {byte : Byte}
    (h : ∀ s, exec i s = present (sendWord rs 0 byte) .P_CFG s) : Delivers i rs byte :=
  fun s busy hI hready hr hm =>
    ⟨(h s).trans (present_ready hready _ _), 0, runSteps_send busy rs byte hI hready hr hm⟩

/-- Settles O8: `IRWRITE` is presented with the word of the `SEND` of its byte. -/
theorem irwriteDelivers : Obligations.IrwriteDelivers :=
  fun byte => ⟨encode_irwrite byte, delivers_of_exec (exec_send 0 byte)⟩

/-- A ready block runs what the word at its port decodes to. -/
theorem step_command {w : CmdWord} {rest : List HostAction} (hready : s.ready = true) (hr : s.resetAsserted = false)
    (hport : s.port = .command w :: rest) : step s = exec (decode w) (s.resetSampled.withPort rest) :=
  (step_ready hr ((ready_iff s).mp hready)).trans (serveHost_command (s := s.resetSampled) hport)

/-- Settles O19: a reserved word decodes to its reserved instruction, and `exec` refuses that without a look at the state. -/
theorem reservedWordsAreRefused : Obligations.ReservedWordsAreRefused := by
  refine ⟨fun _ _ _ => rfl, fun _ _ _ => rfl, fun _ _ => rfl, fun _ _ => rfl, fun s w rest hready hr hport => ?_⟩
  rw [step_command hready hr hport]
  refine ⟨fun h3 => ?_, fun h0 hrw => ?_, fun h1 hbits => ?_, fun h2 hbits => ?_⟩
  · rw [decode_op3 h3]; rfl
  · rw [decode_sendRead h0 hrw]; rfl
  · rw [decode_rawnibBits h1 hbits]; rfl
  · rw [decode_pollBits h2 hbits]; rfl

end Sys2Proof.Machine
end

section
/-! A command meets the port (spec/40_bus_transport.md R115, R120): what a ready block does with the head of its
port, what it accepts of any instruction, and how a busy block holds a request off. -/

namespace Sys2Proof.Machine

variable {s t : State}

/-! ### A ready block and its port -/

/-- Settles O20: with a word next at the port a ready block runs what the word decodes to, and `withFetchWord` places the word
at the port of a ready block. -/
theorem stepRunsTheDecodedCommand : Obligations.StepRunsTheDecodedCommand := by
  refine ⟨fun s w rest hready hr hport => step_command hready hr hport, fun s nbits n hn _ => ?_⟩
  have hport : (s.withFetchWord nbits n).port = .command (BitVec.ofNat 12 n) :: s.port := by
    rw [State.withFetchWord, Nat.mod_eq_of_lt hn]
    rfl
  exact step_command (s := s.withFetchWord nbits n) rfl rfl hport

/-- Settles O22: the three heads of a port that are no command, each with the host's own action on it. -/
theorem idleBlockKeepsItsState : Obligations.IdleBlockKeepsItsState := by
  intro s hready hr
  have hstep : step s = serveHost s.resetSampled := step_ready hr ((ready_iff s).mp hready)
  rw [hstep]
  exact ⟨fun hport => serveHost_nothing hport, fun t rest hport => serveHost_delay (s := s.resetSampled) hport,
    fun l rest hport => serveHost_enter (s := s.resetSampled) hport⟩

/-! ### Acceptance (R120) -/

/-- The first micro-step of the command with word `w`. -/
def firstRow (w : CmdWord) : Seq := if opField w = 1 then .R_CTRL else .P_CFG

theorem firstRow_cases (w : CmdWord) :
    (firstRow w = .P_CFG ∨ firstRow w = .R_CTRL) ∧ (firstRow w = .R_CTRL ↔ opField w = 1) := by
  unfold firstRow
  split_ifs with h
  · exact ⟨.inr rfl, iff_of_true rfl h⟩
  · exact ⟨.inl rfl, iff_of_false nofun h⟩

/-- What is the `SEND` of a byte, and has the word of that `SEND`, is presented with its own word. -/
theorem presents_of_sendWord {i : Instr} {rs : Bit} {byte : Byte} (hw : encode i = sendWord rs 0 byte)
    (hs : ∀ s, exec i s = execSend rs 0 byte s) (s : State) : exec i s = present (encode i) (firstRow (encode i)) s := by
  have hfirst : firstRow (sendWord rs 0 byte) = .P_CFG := by rw [firstRow, opField_sendWord]; rfl
  rw [hs s, hw, hfirst]
  exact exec_send rs byte s

theorem encode_rawnib : ∀ n : Nibble, encode (.rawnib n) = rawnibWord n := by decide

theorem firstRow_rawnibWord (n : Nibble) : firstRow (rawnibWord n) = .R_CTRL := by
  rw [firstRow, opField_rawnibWord]
  rfl

/-- Whatever the state, a well-formed instruction presents its own word, or is refused. -/
theorem exec_presents_own_word {i : Instr} (hwf : i.wf = true) :
    (∀ s, exec i s = present (encode i) (firstRow (encode i)) s) ∨ ∃ r, ∀ s, exec i s = .refused r := by
  cases i with
  | send rs rw byte =>
    obtain rfl : rw = 0 := by simpa [Instr.wf] using hwf
    exact .inl (presents_of_sendWord (encode_send rs 0 byte) fun _ => rfl)
  | irwrite byte => exact .inl (presents_of_sendWord (encode_irwrite byte) fun _ => rfl)
  | clear => exact .inl (presents_of_sendWord encode_clear fun _ => rfl)
  | home => exact .inl (presents_of_sendWord encode_home fun _ => rfl)
  | entry d sh => exact .inl (presents_of_sendWord (encode_entry d sh) fun _ => rfl)
  | dispctl d c k => exact .inl (presents_of_sendWord (encode_dispctl d c k) fun _ => rfl)
  | shift o d => exact .inl (presents_of_sendWord (encode_shift o d) fun _ => rfl)
  | funcset w l => exact .inl (presents_of_sendWord (encode_funcset w l) fun _ => rfl)
  | wrdata byte => exact .inl (presents_of_sendWord (encode_wrdata byte) fun _ => rfl)
  | rawnib n => exact .inl fun s => by rw [encode_rawnib, firstRow_rawnibWord, exec_rawnib]
  | poll => exact .inl fun _ => rfl
  | reservedSendRead => exact .inr ⟨_, fun _ => rfl⟩
  | reservedRawnibBits => exact .inr ⟨_, fun _ => rfl⟩
  | reservedPollBits => exact .inr ⟨_, fun _ => rfl⟩
  | reservedOp => exact .inr ⟨_, fun _ => rfl⟩

/-- Settles O32: an instruction that a ready block answers is accepted with its own word. -/
theorem acceptanceWritesOnlyTheLatch : Obligations.AcceptanceWritesOnlyTheLatch := by
  intro i s t hwf hready h
  rcases exec_presents_own_word hwf with hw | ⟨r, hrefuse⟩
  · rw [hw, present_ready hready, Host.Outcome.next.injEq] at h
    obtain ⟨hfirst, hraw⟩ := firstRow_cases (encode i)
    exact ⟨firstRow (encode i), hfirst, hraw, h.symm⟩
  · simp [hrefuse] at h

/-! ### A request at a busy block -/

/-- A row leaves the command latch as it was accepted (10_state.md R31). -/
theorem advance_keeps_latch (h : advance s = .next t) :
    t.op = s.op ∧ t.crs = s.crs ∧ t.crw = s.crw ∧ t.cdata = s.cdata := by
  apply advance_elim h <;> intros <;> subst t <;> exact ⟨rfl, rfl, rfl, rfl⟩

/-- Settles O21: a request that is held off leaves the step to the row of the command in progress, which keeps the latch and
the port. -/
theorem busyBlockHoldsRequestsOff : Obligations.BusyBlockHoldsRequestsOff := by
  intro s t hbusy hr h
  have ha : advance s.resetSampled = .next t := (stepWith_busy hr hbusy _).symm.trans h
  obtain ⟨hport, -⟩ := advance_keeps_environment ha
  refine ⟨fun i _ hmeant => ?_, hport, advance_keeps_latch (s := s.resetSampled) ha⟩
  rcases exec_presents_or_refuses i with ⟨w, first, hw⟩ | ⟨r, hrefuse⟩
  · exact (hw _).trans ((present_busy (s := s.resetSampled) hbusy w first).trans ha)
  · exact absurd (hrefuse s) (hmeant s r)

/-! ### `SEND` (R115) -/

/-- Settles O7: `SEND` is presented with its own word and is delivered; with `rw = 1` it is refused. -/
theorem sendDelivers : Obligations.SendDelivers :=
  fun rs byte => ⟨encode_send rs 0 byte, delivers_of_exec (exec_send rs byte), exec_send_read rs byte⟩

end Sys2Proof.Machine
end

section
/-! Frames of one step (spec/40_bus_transport.md R110 to R118): for each register the rows of the table that write it, and from
these what a step of a poll and of a transfer leaves alone, and that the lines are still while `E` is high. -/

namespace Sys2Proof.Machine

variable {s t : State}

/-! ### Who writes what (R118) -/

/-- The rows that put levels on `RS` and `RW`. -/
def Seq.levelRows : List Seq := [.P_CTRL, .S_CTRL, .R_CTRL]

/-- The rows that write `DOUT`. -/
def Seq.dataRows : List Seq := [.S_D0, .S_D1, .R_D]

/-- The rows at the two edges of a pulse. -/
def Seq.edgeRows : List Seq := [.P_EH, .P_EL, .P_DEH, .P_DEL, .S_EH0, .S_EL0, .S_EH1, .S_EL1, .R_EH, .R_EL]

/-- The rows at the falling edge of a pulse: those that end one. -/
def Seq.fallRows : List Seq := [.P_EL, .P_DEL, .S_EL0, .S_EL1, .R_EL]

/-- No row writes the parameters, the module, or what is the host's. -/
theorem advance_keeps_outside (h : advance s = .next t) :
    t.params = s.params ∧ t.port = s.port ∧ t.life = s.life ∧ t.oracle = s.oracle ∧ t.draws = s.draws ∧
      t.resetIn = s.resetIn := by
  apply advance_elim h <;> intros <;> subst t <;> exact ⟨rfl, rfl, rfl, rfl, rfl, rfl⟩

theorem advance_bf (h : advance s = .next t) : t.bf = s.bf ∨ s.seq = .P_SMP := by
  apply advance_elim h
  case P_SMP => exact fun hq _ => .inr hq
  all_goals intros; subst t; exact .inl rfl

theorem advance_levels (h : advance s = .next t) : (t.rs = s.rs ∧ t.rw = s.rw) ∨ s.seq ∈ Seq.levelRows := by
  apply advance_elim h
  case P_CTRL => exact fun hq _ => .inr (by rw [hq]; decide)
  case S_CTRL_eight | S_CTRL_four | R_CTRL_eight | R_CTRL_four => exact fun hq _ _ => .inr (by rw [hq]; decide)
  all_goals intros; subst t; exact .inl ⟨rfl, rfl⟩

theorem advance_dout (h : advance s = .next t) : t.dout = s.dout ∨ s.seq ∈ Seq.dataRows := by
  apply advance_elim h
  case S_D1 => exact fun hq _ => .inr (by rw [hq]; decide)
  case S_D0_eight | S_D0_four | R_D_eight | R_D_four => exact fun hq _ _ => .inr (by rw [hq]; decide)
  all_goals intros; subst t; exact .inl rfl

theorem advance_e (h : advance s = .next t) : t.e = s.e ∨ s.seq ∈ Seq.edgeRows := by
  apply advance_elim h
  case P_EH | P_DEH | P_DEL | S_EH0 | S_EH1 | S_EL1 | R_EH | R_EL => exact fun hq _ => .inr (by rw [hq]; decide)
  case P_EL_eight | P_EL_four | S_EL0_eight | S_EL0_four => exact fun hq _ _ => .inr (by rw [hq]; decide)
  all_goals intros; subst t; exact .inl rfl

/-- A bus cycle is recorded where a pulse ends. -/
theorem advance_bus (h : advance s = .next t) : t.bus = s.bus ∨ s.seq ∈ Seq.fallRows := by
  obtain ⟨evs, hdo⟩ := advance_does h
  cases hdo with
  | move => exact .inl rfl
  | one he | last he _ => exact he.bus.imp (·.2) fun ⟨_, hp, _⟩ => List.contains_iff_mem.mp hp

/-- The poll takes `D[7]` over and gives it back; beside that a transfer may set the directions. -/
theorem advance_direction (h : advance s = .next t) :
    (t.ddir = s.ddir ∧ t.dpue = s.dpue) ∨
    (s.seq = .P_CFG ∧ t.ddir = s.ddir &&& 0x7F ∧ t.dpue = s.dpue ||| 0x80) ∨
    (s.seq = .P_REST ∧ t.ddir = s.ddir ||| 0x80 ∧ t.dpue = s.dpue &&& 0x7F) ∨
    ((s.seq = .S_DIR ∨ s.seq = .R_DIR) ∧ t.ddir = 0xFF ∧ t.dpue = s.dpue) := by
  apply advance_elim h
  case P_CFG => rintro hq rfl; exact .inr (.inl ⟨hq, rfl, rfl⟩)
  case P_REST_send | P_REST_poll => rintro hq - rfl; exact .inr (.inr (.inl ⟨hq, rfl, rfl⟩))
  case S_DIR => rintro hq rfl; exact .inr (.inr (.inr ⟨.inl hq, rfl, rfl⟩))
  case R_DIR => rintro hq rfl; exact .inr (.inr (.inr ⟨.inr hq, rfl, rfl⟩))
  all_goals intros; subst t; exact .inl ⟨rfl, rfl⟩

/-! ### A step of a poll (R112, R117) -/

/-- Writing bit 7 leaves the other bits. -/
theorem otherBits_of_bit7 (d : Byte) : d &&& 0x7F &&& 0x7F = d &&& 0x7F ∧ (d ||| 0x80) &&& 0x7F = d &&& 0x7F := by
  revert d
  set_option maxRecDepth 100000 in decide

/-- In a poll the direction and the pull-up of `D[7]` alone are written. -/
theorem advance_otherLines_of_poll (h : advance s = .next t) (hpoll : s.seq.group = .poll) :
    t.ddir &&& 0x7F = s.ddir &&& 0x7F ∧ t.dpue &&& 0x7F = s.dpue &&& 0x7F := by
  rcases advance_direction h with ⟨hddir, hdpue⟩ | ⟨_, hddir, hdpue⟩ | ⟨_, hddir, hdpue⟩ | ⟨hq | hq, _⟩
  · rw [hddir, hdpue]
    exact ⟨rfl, rfl⟩
  · rw [hddir, hdpue]
    exact ⟨(otherBits_of_bit7 _).1, (otherBits_of_bit7 _).2⟩
  · rw [hddir, hdpue]
    exact ⟨(otherBits_of_bit7 _).2, (otherBits_of_bit7 _).1⟩
  · rw [hq] at hpoll
    cases hpoll
  · rw [hq] at hpoll
    cases hpoll

/-- Of a list of rows, those with a property that the row in progress has. -/
theorem mem_rows_of {q : Seq} {rows : List Seq} (P : Seq → Bool) (hq : P q = true) (h : q ∈ rows) : q ∈ rows.filter P :=
  List.mem_filter.mpr ⟨h, hq⟩

/-- Settles O30: of the rows that write a register, those that are in a poll. -/
theorem pollStepFrame : Obligations.PollStepFrame := by
  intro i s t hpoll h
  have hbusy : s.ready = false := (not_ready_iff s).mpr fun hq => by rw [hq] at hpoll; cases hpoll
  have ha := exec_next_of_busy hbusy h
  have hgroup : (s.seq.group == .poll) = true := beq_iff_eq.mpr hpoll
  have inPoll {rows : List Seq} := mem_rows_of (rows := rows) (fun q => q.group == .poll) hgroup
  obtain ⟨hop, hcrs, hcrw, hcdata⟩ := advance_keeps_latch ha
  obtain ⟨hparams, hport, hlife, horacle, hdraws, hresetIn⟩ := advance_keeps_outside ha
  obtain ⟨hddir, hdpue⟩ := advance_otherLines_of_poll ha hpoll
  have hdout : t.dout = s.dout := (advance_dout ha).resolve_right fun hq => List.not_mem_nil (inPoll hq)
  have hlevels := (advance_levels ha).imp_right fun hq => List.mem_singleton.mp (inPoll hq)
  have hedges : t.e = s.e ∨ s.seq ∈ [.P_EH, .P_EL, .P_DEH, .P_DEL] := (advance_e ha).imp_right inPoll
  have hbus : t.bus = s.bus ∨ s.seq ∈ [.P_EL, .P_DEL] := (advance_bus ha).imp_right inPoll
  exact ⟨hdout, hddir, hdpue, hop, hcrs, hcrw, hcdata, hparams, hport, hlife, horacle, hdraws, hresetIn, advance_bf ha,
    hlevels, by simpa using hedges, by simpa using hbus⟩

/-! ### A step of a transfer (R113 to R116) -/

/-- Settles O31: of the rows that write a register, those that are not in a poll. -/
theorem transferStepFrame : Obligations.TransferStepFrame := by
  intro i s t htransfer h
  have hbusy : s.ready = false := (not_ready_iff s).mpr fun hq => by rw [hq] at htransfer; revert htransfer; decide
  have ha := exec_next_of_busy hbusy h
  have hout : s.seq.group ≠ .poll := by rcases htransfer with hg | hg <;> rw [hg] <;> nofun
  have notInPoll {rows : List Seq} := mem_rows_of (rows := rows) (fun q => q.group != .poll) (bne_iff_ne.mpr hout)
  have notAt {q : Seq} (hq : q.group = .poll) (hs : s.seq = q) : False := hout (hs ▸ hq)
  obtain ⟨hop, hcrs, hcrw, hcdata⟩ := advance_keeps_latch ha
  obtain ⟨hparams, hport, hlife, horacle, hdraws, hresetIn⟩ := advance_keeps_outside ha
  have hlines : (t.ddir = s.ddir ∨ (t.ddir = 0xFF ∧ (s.seq = .S_DIR ∨ s.seq = .R_DIR))) ∧ t.dpue = s.dpue := by
    rcases advance_direction ha with ⟨hddir, hdpue⟩ | ⟨hq, _⟩ | ⟨hq, _⟩ | ⟨hq, hddir, hdpue⟩
    · exact ⟨.inl hddir, hdpue⟩
    · exact (notAt rfl hq).elim
    · exact (notAt rfl hq).elim
    · exact ⟨.inr ⟨hddir, hq⟩, hdpue⟩
  have hbf : t.bf = s.bf := (advance_bf ha).resolve_right (notAt rfl)
  have hlevels : (t.rs = s.rs ∧ t.rw = s.rw) ∨ s.seq ∈ [.S_CTRL, .R_CTRL] := (advance_levels ha).imp_right notInPoll
  have hdata : t.dout = s.dout ∨ s.seq ∈ Seq.dataRows := advance_dout ha
  have hbus : t.bus = s.bus ∨ s.seq ∈ [.S_EL0, .S_EL1, .R_EL] := (advance_bus ha).imp_right notInPoll
  exact ⟨hbf, hlines.2, hop, hcrs, hcrw, hcdata, hparams, hport, hlife, horacle, hdraws, hresetIn, hlines.1,
    by simpa using hlevels, by simpa [Seq.dataRows] using hdata, (advance_e ha).imp_right notInPoll, hbus⟩

/-! ### A step with `E` high (R110) -/

/-- Inside a pulse no row writes a line. -/
theorem advance_keeps_lines_of_inPulse (h : advance s = .next t) (hp : s.seq.inPulse = true) :
    t.rs = s.rs ∧ t.rw = s.rw ∧ t.dout = s.dout ∧ t.ddir = s.ddir ∧ t.dpue = s.dpue := by
  have inPulse {rows : List Seq} := mem_rows_of (rows := rows) Seq.inPulse hp
  have notAt {q : Seq} (hq : q.inPulse = false) (hs : s.seq = q) : False := by rw [hs, hq] at hp; cases hp
  obtain ⟨hrs, hrw⟩ := (advance_levels h).resolve_right fun hq => List.not_mem_nil (inPulse hq)
  have hdout := (advance_dout h).resolve_right fun hq => List.not_mem_nil (inPulse hq)
  rcases advance_direction h with ⟨hddir, hdpue⟩ | ⟨hq, _⟩ | ⟨hq, _⟩ | ⟨hq | hq, _⟩
  · exact ⟨hrs, hrw, hdout, hddir, hdpue⟩
  all_goals exact (notAt rfl hq).elim

/-- `E` is high inside a pulse only. -/
theorem State.Inv.inPulse (hI : s.Inv) (he : s.e = 1) : s.seq.inPulse = true := by
  by_contra hp
  rw [hI.enable, if_neg hp] at he
  cases he

/-- Settles O43: with `E` high the block is inside a pulse, so the step is a row there. -/
theorem linesAreStillWhileEnableIsHigh : Obligations.LinesAreStillWhileEnableIsHigh := by
  intro s t hI he hr h
  have hp := hI.inPulse he
  have hidle : s.seq ≠ .IDLE := fun hq => by rw [hq] at hp; cases hp
  rw [step_busy hr hidle] at h
  exact advance_keeps_lines_of_inPulse (s := s.resetSampled) h hp

end Sys2Proof.Machine
end

section
/-! The transition table against the pseudocode (spec/40_bus_transport.md R110 to R118): the rows of a poll, a `SEND`, a
`RAWNIB` and the two transfer strategies come to what their procedures give. -/

namespace Sys2Proof.Machine

variable {s : State}

/-! ### The poll, its loop cut off after any number of turns (R112) -/

/-- The loop keeps the command latch and the reset input, as every turn of it does. -/
theorem pollLoop_keeps_latch {limit : Nat} {u : State} (h : pollLoop limit s = some u) :
    u.op = s.op ∧ u.crs = s.crs ∧ u.crw = s.crw ∧ u.cdata = s.cdata ∧ u.resetIn = s.resetIn := by
  induction limit generalizing s with
  | zero => cases h
  | succ limit ih =>
    rw [pollLoop] at h
    split_ifs at h with hbusy
    · simpa using ih h
    · cases h
      simp

/-- The rows from `P_EH` come to `P_REST` with what the loop comes out with. -/
theorem runSteps_of_pollLoop {limit : Nat} {u : State} (hr : s.resetIn = []) (h : pollLoop limit s = some u) :
    ∃ k, runSteps k (s.goto .P_EH) = .next (u.goto .P_REST) := by
  induction limit generalizing s with
  | zero => cases h
  | succ limit ih =>
    have hturn (k : Nat) := runSteps_pollIteration (s := s.goto .P_EH) rfl hr k
    simp only [pollIteration_goto, State.stillBusy_goto, State.goto_goto] at hturn
    rw [pollLoop] at h
    split_ifs at h with hbusy
    · obtain ⟨k, hrun⟩ := ih (s := pollIteration s) (by simpa using hr) h
      exact ⟨_, (hturn k).trans (by rwa [if_pos hbusy])⟩
    · cases h
      exact ⟨_, (hturn 0).trans (by rw [if_neg hbusy]; rfl)⟩

/-- The rows from `P_CFG` come to `P_REST` with what the loop comes out with. -/
theorem runSteps_of_poll {limit : Nat} {u : State} (hq : s.seq = .P_CFG) (hr : s.resetIn = [])
    (h : pollLoop limit (ctl 0 1 (cfg7In s)) = some u) : ∃ k, runSteps k s = .next (u.goto .P_REST) := by
  obtain ⟨k, hrun⟩ := runSteps_of_pollLoop (s := ctl 0 1 (cfg7In s)) hr h
  refine ⟨k + 1 + 1, ?_⟩
  refine (runSteps_of_advance hr (by rw [hq]; nofun) (advance_P_CFG hq)).trans ?_
  exact (runSteps_of_advance (s := (cfg7In s).goto .P_CTRL) hr nofun (advance_P_CTRL rfl)).trans hrun

/-- Settles O26: the loop's rows, and the row of `P_REST` that returns. -/
theorem tableCarriesOutPollPseudocode : Obligations.TableCarriesOutPollPseudocode := by
  intro s u limit hq hop hr h
  obtain ⟨v, hloop, rfl⟩ := Option.map_eq_some_iff.mp h
  obtain ⟨k, hrun⟩ := runSteps_of_poll hq hr hloop
  obtain ⟨hvop, -, -, -, hvr⟩ := pollLoop_keeps_latch hloop
  exact ⟨k + 1, (runSteps_add_of_next hrun).trans
    (runSteps_of_advance (hvr.trans hr) nofun (advance_P_REST_poll rfl (hvop.trans hop)))⟩

/-! ### `SEND` (R115) -/

/-- The transfer does not depend on `SEQ`. -/
theorem driveByte_goto (byte : Byte) (s : State) (q : Seq) : driveByte byte (s.goto q) = (driveByte byte s).goto q := by
  cases hm : s.mode <;> simp [driveByte, hm, driveByte8, driveByte4, memWrite8, memWrite4, pulse]

/-- Settles O25: the loop's rows, the row of `P_REST` that goes on, and the transfer's rows. -/
theorem tableCarriesOutSendPseudocode : Obligations.TableCarriesOutSendPseudocode := by
  intro s u limit hq hop hr h
  obtain ⟨w, hwait, rfl⟩ := Option.map_eq_some_iff.mp h
  obtain ⟨v, hloop, rfl⟩ := Option.map_eq_some_iff.mp hwait
  obtain ⟨k, hrun⟩ := runSteps_of_poll hq hr hloop
  obtain ⟨hvop, hvcrs, hvcrw, hvcdata, hvr⟩ := pollLoop_keeps_latch hloop
  have hrest := runSteps_of_advance (k := driveSteps v.mode) (s := v.goto .P_REST) (hvr.trans hr) nofun
    (advance_P_REST_send rfl (hvop.trans hop))
  have hdrive := runSteps_drive (s := (cfg7Out v).goto .S_CTRL) rfl (hvr.trans hr) rfl
  refine ⟨k + (driveSteps v.mode + 1), (runSteps_add_of_next hrun).trans (hrest.trans (hdrive.trans ?_))⟩
  simp only [ctl_goto, driveByte_goto, ret_goto, State.goto_crs, State.goto_crw, State.goto_cdata, cfg7Out_crs, cfg7Out_crw,
    cfg7Out_cdata]
  rw [hvcrs, hvcrw, hvcdata]
  rfl

/-! ### A pulse (R110) -/

/-- Two rows that raise `E` and hold it, wherever in the table they stand. -/
theorem runSteps_enable {p q r : Seq} (hrise : ∀ {v : State}, v.seq = p → advance v = .next ((eHi v).goto q))
    (hhold : ∀ {v : State}, v.seq = q → advance v = .next ((dly v.params.tPW v).goto r)) (hp : p ≠ .IDLE) (hq : q ≠ .IDLE)
    (k : Nat) (hs : s.seq = p) (hr : s.resetIn = []) :
    runSteps (k + 2) s = runSteps k ((dly s.params.tPW (eHi s)).goto r) :=
  (runSteps_of_advance hr (hs ▸ hp) (hrise hs)).trans (runSteps_of_advance (s := (eHi s).goto q) hr hq (hhold rfl))

/-! ### `RAWNIB` (R116) -/

/-- The rows from `R_EH` are the pulse of a `RAWNIB`, and the return. -/
theorem runSteps_rawPulse (hq : s.seq = .R_EH) (hr : s.resetIn = []) : runSteps 3 s = .next (ret (pulse s)) :=
  (runSteps_enable advance_R_EH advance_R_PW nofun nofun 1 hq hr).trans
    (runSteps_of_advance (s := (dly s.params.tPW (eHi s)).goto .R_EL) hr nofun (advance_R_EL rfl))

/-- The rows from `R_CTRL` are the pseudocode of `RAWNIB`, in both modes. -/
theorem runSteps_raw {m : BusMode} (hq : s.seq = .R_CTRL) (hr : s.resetIn = []) (hm : s.mode = m) :
    runSteps (rawSteps m) s = .next (ret (rawnibBody (lowNibble s.cdata) s)) := by
  cases m
  case eightBit =>
    have hbody :
        rawnibBody (lowNibble s.cdata) s = pulse (dat8 (rawByte (lowNibble s.cdata)) (dirAll (ctl 0 0 s))) := by
      rw [rawnibBody, hm]
    rw [hbody]
    refine (runSteps_of_advance hr (by rw [hq]; nofun) (advance_R_CTRL_eight hq hm)).trans ?_
    refine (runSteps_of_advance (s := (ctl 0 0 s).goto .R_DIR) hr nofun (advance_R_DIR rfl)).trans ?_
    refine (runSteps_of_advance (s := (dirAll (ctl 0 0 s)).goto .R_D) hr nofun (advance_R_D_eight rfl hm)).trans ?_
    exact runSteps_rawPulse (s := (dat8 (rawByte (lowNibble s.cdata)) (dirAll (ctl 0 0 s))).goto .R_EH) rfl hr
  case fourBit =>
    have hbody : rawnibBody (lowNibble s.cdata) s = pulse (dat4 (lowNibble s.cdata) (ctl 0 0 s)) := by rw [rawnibBody, hm]
    rw [hbody]
    refine (runSteps_of_advance hr (by rw [hq]; nofun) (advance_R_CTRL_four hq hm)).trans ?_
    refine (runSteps_of_advance (s := (ctl 0 0 s).goto .R_D) hr nofun (advance_R_D_four rfl hm)).trans ?_
    exact runSteps_rawPulse (s := (dat4 (lowNibble s.cdata) (ctl 0 0 s)).goto .R_EH) rfl hr

/-- Settles O27: the rows of each mode are those of its procedure. -/
theorem tableCarriesOutRawnibPseudocode : Obligations.TableCarriesOutRawnibPseudocode :=
  fun _ hq hr => runSteps_raw hq hr rfl

/-! ### The two transfer strategies (R113, R114) -/

/-- From `S_DIR` the rows are `DriveByte8`, and the return. -/
theorem runSteps_driveByte8 (hq : s.seq = .S_DIR) (hr : s.resetIn = []) (hm : s.mode = .eightBit) :
    runSteps 5 s = .next (ret (driveByte8 s.cdata s)) := by
  refine (runSteps_of_advance hr (by rw [hq]; nofun) (advance_S_DIR hq)).trans ?_
  refine (runSteps_of_advance (s := (dirAll s).goto .S_D0) hr nofun (advance_S_D0_eight rfl hm)).trans ?_
  refine (runSteps_enable advance_S_EH0 advance_S_PW0 nofun nofun 1
    (s := (dat8 s.cdata (dirAll s)).goto .S_EH0) rfl hr).trans ?_
  exact runSteps_of_advance (s := (dly s.params.tPW (eHi (dat8 s.cdata (dirAll s)))).goto .S_EL0) hr nofun
    (advance_S_EL0_eight rfl hm)

/-- From `S_D0` in `FourBit` the rows write the high nibble. -/
theorem runSteps_highNibble (k : Nat) (hq : s.seq = .S_D0) (hr : s.resetIn = []) (hm : s.mode = .fourBit) :
    runSteps (k + 4) s = runSteps k ((memWrite4 (highNibble s.cdata) s).goto .S_D1) := by
  refine (runSteps_of_advance hr (by rw [hq]; nofun) (advance_S_D0_four hq hm)).trans ?_
  refine (runSteps_enable advance_S_EH0 advance_S_PW0 nofun nofun (k + 1)
    (s := (dat4 (highNibble s.cdata) s).goto .S_EH0) rfl hr).trans ?_
  exact runSteps_of_advance (s := (dly s.params.tPW (eHi (dat4 (highNibble s.cdata) s))).goto .S_EL0) hr nofun
    (advance_S_EL0_four rfl hm)

/-- From `S_D1` the rows write the low nibble, and return. -/
theorem runSteps_lowNibble (hq : s.seq = .S_D1) (hr : s.resetIn = []) :
    runSteps 4 s = .next (ret (memWrite4 (lowNibble s.cdata) s)) := by
  refine (runSteps_of_advance hr (by rw [hq]; nofun) (advance_S_D1 hq)).trans ?_
  refine (runSteps_enable advance_S_EH1 advance_S_PW1 nofun nofun 1
    (s := (dat4 (lowNibble s.cdata) s).goto .S_EH1) rfl hr).trans ?_
  exact runSteps_of_advance (s := (dly s.params.tPW (eHi (dat4 (lowNibble s.cdata) s))).goto .S_EL1) hr nofun
    (advance_S_EL1 rfl)

/-- From `S_D0` in `FourBit` the rows are `DriveByte4`, and the return. -/
theorem runSteps_driveByte4 (hq : s.seq = .S_D0) (hr : s.resetIn = []) (hm : s.mode = .fourBit) :
    runSteps 8 s = .next (ret (driveByte4 s.cdata s)) :=
  (runSteps_highNibble 4 hq hr hm).trans
    (runSteps_lowNibble (s := (memWrite4 (highNibble s.cdata) s).goto .S_D1) rfl hr)

/-- Settles O28: `DriveByte8` and the return, field by field. -/
theorem eightBitStrategyWritesByteInOnePulse : Obligations.EightBitStrategyWritesByteInOnePulse := by
  intro s hq hm hr
  refine (runSteps_driveByte8 hq hr hm).trans (congrArg Host.Outcome.next ?_)
  apply State.ext <;> simp [driveByte8, memWrite8, pulse]

/-- The upper lines take the high nibble where it stands in the byte. -/
theorem upperLines_highNibble_eq (b d : Byte) : upperLines (highNibble b) d = b &&& 0xF0 ||| d &&& 0x0F := by
  have h : ∀ b : Byte, (highNibble b).setWidth 8 <<< 4 = b &&& 0xF0 := by
    set_option maxRecDepth 100000 in decide
  rw [upperLines, h]

/-- The upper lines take the low nibble from the lower half of the byte. -/
theorem upperLines_lowNibble_eq (b d : Byte) : upperLines (lowNibble b) d = (b &&& 0x0F) <<< 4 ||| d &&& 0x0F := by
  have h : ∀ b : Byte, (lowNibble b).setWidth 8 <<< 4 = (b &&& 0x0F) <<< 4 := by
    set_option maxRecDepth 100000 in decide
  rw [upperLines, h]

/-- Settles O29: `DriveByte4` and the return, field by field, and the nibbles where R121 puts them. -/
theorem fourBitStrategyWritesHighNibbleFirst : Obligations.FourBitStrategyWritesHighNibbleFirst := by
  intro s hq hm hr
  refine (runSteps_driveByte4 hq hr hm).trans (congrArg Host.Outcome.next ?_)
  rw [← upperLines_highNibble_eq, ← upperLines_lowNibble_eq]
  apply State.ext <;> simp [driveByte4, memWrite4, pulse, upperLines_upperLines, highNibble, lowNibble]

end Sys2Proof.Machine
end

section
/-! Commands carried out to their end (spec/40_bus_transport.md R116, R117, R119): `RAWNIB` and `POLL` from acceptance to
the whole state they leave, and how many samples and pulses a `POLL` and a `SEND` take. -/

namespace Sys2Proof.Machine

variable {s : State}

/-- The lines of a ready block. -/
theorem State.Inv.lines_of_ready (hI : s.Inv) (hready : s.ready = true) : s.ddir = 0xFF ∧ s.dpue = 0x00 := by
  have hidle := (ready_iff s).mp hready
  exact ⟨by rw [hI.direction, hidle]; rfl, by rw [hI.pullUp, hidle]; rfl⟩

/-- Acceptance leaves the coming answers of the module. -/
theorem moduleReadyAfter_accept {busy : Nat} (w : CmdWord) (first : Seq) (hm : s.ModuleReadyAfter busy) :
    (accept w first s).ModuleReadyAfter busy :=
  ⟨fun j hj => (answer_accept w first s j).trans (hm.1 j hj), (answer_accept w first s busy).trans hm.2⟩

/-! ### `RAWNIB` (R116) -/

/-- The pseudocode of `RAWNIB` on an accepted command, with all lines outputs, leaves the state R116 gives. -/
theorem ret_rawnibBody (n : Nibble) (hddir : s.ddir = 0xFF) :
    ret (rawnibBody n (accept (rawnibWord n) .R_CTRL s)) = rawSent n s := by
  cases hm : s.mode <;>
    apply State.ext <;>
      simp [rawnibBody, hm, pulse, rawSent, doutAfterRaw, rawEvents, wr8, hddir, rawByte_eq_append, opField_rawnibWord,
        rsField_rawnibWord, rwField_rawnibWord, byteField_rawnibWord]

/-- Settles O17: acceptance, and the rows of the pseudocode with the nibble of the latch. -/
theorem rawnibTransfersOneNibble : Obligations.RawnibTransfersOneNibble := by
  intro n s hI hready hr
  obtain ⟨hddir, -⟩ := hI.lines_of_ready hready
  have hnibble : lowNibble (accept (rawnibWord n) .R_CTRL s).cdata = n := by
    rw [accept_cdata, byteField_rawnibWord, lowNibble_setWidth]
  refine ⟨(exec_rawnib n s).trans (present_ready hready _ _), ?_⟩
  rw [← ret_rawnibBody n hddir]
  refine (runSteps_raw (s := accept (rawnibWord n) .R_CTRL s) rfl hr rfl).trans ?_
  rw [hnibble]

/-! ### `POLL` (R117) -/

theorem pollWord_fields :
    opField pollWord = 2 ∧ rsField pollWord = 0 ∧ rwField pollWord = 0 ∧ byteField pollWord = 0 := by decide

/-- From its acceptance a `POLL` is carried out to the state R117 gives, reading busy any number of times. -/
theorem runSteps_polled (busy : Nat) (hI : s.Inv) (hready : s.ready = true) (hr : s.resetIn = [])
    (hm : s.ModuleReadyAfter busy) :
    runSteps (pollSteps s.mode busy) (accept pollWord .P_CFG s) = .next (polled busy 0 s) := by
  obtain ⟨hddir, hdpue⟩ := hI.lines_of_ready hready
  refine (runSteps_poll (s := accept pollWord .P_CFG s) 1 rfl hr hddir (moduleReadyAfter_accept _ _ hm)).trans ?_
  refine Eq.trans (runSteps_of_advance hr nofun (advance_P_REST_poll rfl rfl)) (congrArg Host.Outcome.next ?_)
  apply State.ext <;> simp [polled, hddir, hdpue, pollEvents, pollWord_fields]

/-- Settles O18: acceptance, and the run of the poll. -/
theorem pollReturnsWhenModuleClears : Obligations.PollReturnsWhenModuleClears :=
  fun s busy hI hready hr hm =>
    ⟨(exec_poll s).trans (present_ready hready _ _), 0, runSteps_polled busy hI hready hr hm⟩

/-! ### Counts (R119) -/

/-- How many pulses a turn of the poll's loop takes. -/
def iterationPulses : BusMode → Nat
  | .eightBit => 1
  | .fourBit => 2

/-- How many of these are dummy pulses. -/
def iterationDummies : BusMode → Nat
  | .eightBit => 0
  | .fourBit => 1

theorem length_iterationCycles (m : BusMode) (dout : Byte) (b : Bit) :
    (iterationCycles m dout b).length = iterationPulses m := by
  cases m <;> rfl

theorem countP_iterationCycles (m : BusMode) (dout : Byte) (b : Bit) :
    (iterationCycles m dout b).countP BusCycle.isDummy = iterationDummies m := by
  cases m <;> simp [iterationCycles, iterationDummies, BusCycle.isDummy, rd, rdX]

/-- A poll takes one turn of the loop more than it reads busy. -/
theorem length_pollCycles (m : BusMode) (dout : Byte) (busy : Nat) :
    (pollCycles m dout busy).length = iterationPulses m * (busy + 1) := by
  simp [pollCycles, length_iterationCycles, Nat.mul_comm busy, Nat.mul_add_one]

theorem countP_pollCycles (m : BusMode) (dout : Byte) (busy : Nat) :
    (pollCycles m dout busy).countP BusCycle.isDummy = iterationDummies m * (busy + 1) := by
  simp [pollCycles, List.countP_flatten, countP_iterationCycles, Nat.mul_comm busy, Nat.mul_add_one]

/-- A transfer takes a pulse for each byte or nibble it writes. -/
theorem length_driveCycles (m : BusMode) (rs : Bit) (byte dout : Byte) :
    (driveCycles m rs byte dout).length = iterationPulses m := by
  cases m <;> rfl

theorem countP_driveCycles (m : BusMode) (rs : Bit) (byte dout : Byte) :
    (driveCycles m rs byte dout).countP BusCycle.isDummy = 0 := by
  cases m <;> simp [driveCycles, BusCycle.isDummy, wr8, wr4]

theorem sampleCount_polled (busy : Nat) (aux : Bit) (s : State) :
    (polled busy aux s).sampleCount = s.sampleCount + (busy + 1) := by
  simp [State.sampleCount, polled, countP_pollEvents, PinEvent.isSample]

/-- Settles O49: the states that a `POLL` and a `SEND` leave, and the lengths and counts of their traces. -/
theorem pulseAndSampleCounts : Obligations.PulseAndSampleCounts := by
  intro s busy hI hready hr hm
  refine ⟨⟨_, runSteps_polled busy hI hready hr hm, rfl, sampleCount_polled .., ?_, ?_⟩, fun rs byte =>
    ⟨_, runSteps_send busy rs byte hI hready hr hm, rfl, sampleCount_sent .., ?_, ?_⟩⟩
  · rw [polled, List.length_append, length_pollCycles]
    cases s.mode <;> simp [iterationPulses]
  · rw [polled, List.countP_append, countP_pollCycles]
    cases s.mode <;> simp [iterationDummies]
  · rw [sent, List.length_append, List.length_append, length_pollCycles, length_driveCycles]
    cases s.mode <;> simp [iterationPulses, Nat.add_assoc]
  · rw [sent, List.countP_append, List.countP_append, countP_pollCycles, countP_driveCycles]
    cases s.mode <;> simp [iterationDummies]

end Sys2Proof.Machine
end

section
/-! The Instruction Encoder (spec/41_instruction_encoder.md R140 to R146): each mnemonic is the `SEND` of its byte in every
state, has that `SEND`'s word, and so transfers that byte. -/

namespace Sys2Proof.Machine

/-! ### "Every mnemonic of this file is one `SEND` command" (R148) -/

theorem exec_clear (s : State) : exec .clear s = exec (.send 0 0 clearByte) s := rfl

theorem exec_home (s : State) : exec .home s = exec (.send 0 0 homeByte) s := rfl

theorem exec_entry (direction : EntryDirection) (shift : AutoShift) (s : State) :
    exec (.entry direction shift) s = exec (.send 0 0 (entryByte direction shift)) s := rfl

theorem exec_dispctl (display : DisplayState) (cursor : CursorState) (blink : BlinkState) (s : State) :
    exec (.dispctl display cursor blink) s = exec (.send 0 0 (dispctlByte display cursor blink)) s := rfl

theorem exec_shift (object : ShiftObject) (direction : ShiftDirection) (s : State) :
    exec (.shift object direction) s = exec (.send 0 0 (shiftByte object direction)) s := rfl

theorem exec_funcset (width : BusMode) (lines : LineCount) (s : State) :
    exec (.funcset width lines) s = exec (.send 0 0 (funcsetByte width lines)) s := rfl

theorem exec_wrdata (byte : Byte) (s : State) : exec (.wrdata byte) s = exec (.send 1 0 byte) s := rfl

/-- What is, in every state, the `SEND` of a byte transfers that byte. -/
theorem delivers_of_exec_eq_send {i : Instr} {rs : Bit} {byte : Byte}
    (h : ∀ s, exec i s = exec (.send rs 0 byte) s) : Delivers i rs byte :=
  delivers_of_exec fun s => (h s).trans (exec_send rs byte s)

/-! ### The words (R82) -/

/-- The word of an instruction write is its byte, the four bits above it 0. -/
theorem sendWord_instruction (byte : Byte) : sendWord 0 0 byte = byte.setWidth 12 := by
  simp [sendWord]

/-- The word of a data write has the bit of `rs` above its byte. -/
theorem sendWord_data (byte : Byte) : sendWord 1 0 byte = 0x200#12 ||| byte.setWidth 12 := by
  simp [sendWord]

/-- What has the word of the instruction write of a byte, and is its `SEND`, has that byte as its word and transfers it. -/
theorem encode_eq_and_delivers {i : Instr} {byte : Byte} (hword : encode i = sendWord 0 0 byte)
    (hsend : ∀ s, exec i s = exec (.send 0 0 byte) s) : encode i = byte.setWidth 12 ∧ Delivers i 0 byte :=
  ⟨hword.trans (sendWord_instruction byte), delivers_of_exec_eq_send hsend⟩

/-! ### `CLEAR`, `HOME`, `SHIFT`, `WRDATA` (R140, R141, R144, R146) -/

/-- Settles O9: the word and the `SEND` of each, where the byte of `SHIFT` is the formula of R144. -/
theorem clearHomeShiftWrdataAreTheirSends : Obligations.ClearHomeShiftWrdataAreTheirSends := by
  refine ⟨⟨rfl, exec_clear⟩, ⟨rfl, exec_home, by decide⟩, ?shift, by decide, ?wrdata⟩
  case shift =>
    rintro object direction _ rfl
    exact ⟨(encode_shift object direction).trans (sendWord_instruction _), exec_shift object direction⟩
  case wrdata =>
    exact fun byte => ⟨(encode_wrdata byte).trans (sendWord_data byte), exec_wrdata byte⟩

/-- Settles O10: `CLEAR` is the `SEND` of its byte. -/
theorem clearDelivers : Obligations.ClearDelivers := delivers_of_exec_eq_send exec_clear

/-- Settles O11: `HOME` is the `SEND` of its byte. -/
theorem homeDelivers : Obligations.HomeDelivers := delivers_of_exec_eq_send exec_home

/-- Settles O14: the formula of R144 is the byte that `SHIFT` sends. -/
theorem shiftDelivers : Obligations.ShiftDelivers := by
  rintro object direction _ rfl
  exact delivers_of_exec_eq_send (exec_shift object direction)

/-- Settles O16: `WRDATA` is the `SEND` of its operand, with `rs` 1. -/
theorem wrdataDelivers : Obligations.WrdataDelivers := fun byte => delivers_of_exec_eq_send (exec_wrdata byte)

/-! ### `ENTRY`, `DISPCTL`, `FUNCSET` (R142, R143, R145) -/

/-- Settles O12: the formula of R142 is the byte that `ENTRY` sends. -/
theorem entryDelivers : Obligations.EntryDelivers := by
  rintro direction shift _ rfl
  exact encode_eq_and_delivers (encode_entry direction shift) (exec_entry direction shift)

/-- Settles O13: the formula of R143 is the byte that `DISPCTL` sends, and its eight values are computed. -/
theorem dispctlDelivers : Obligations.DispctlDelivers := by
  refine ⟨?_, by decide⟩
  rintro display cursor blink _ rfl
  exact encode_eq_and_delivers (encode_dispctl display cursor blink) (exec_dispctl display cursor blink)

theorem funcsetByte_fourBit (lines : LineCount) :
    funcsetByte .fourBit lines = 0b0010_0000#8 ||| lines.toBit.setWidth 8 <<< 3 := by
  cases lines <;> rfl

theorem funcsetByte_eightBit (lines : LineCount) :
    funcsetByte .eightBit lines = 0b0011_0000#8 ||| lines.toBit.setWidth 8 <<< 3 := by
  cases lines <;> rfl

/-- The host's `FUNCSET` line is the `SEND` of the byte with `W` from `MODE` (30_encoding.md R91, C1). -/
theorem funcsetLine_eq_sendWord (p : Params) (lines : LineCount) :
    funcsetLine p lines = .command (sendWord 0 0 (funcsetByte p.mode lines)) :=
  congrArg HostAction.command (encode_funcset p.mode lines)

/-- Settles O15: the formula of R145 is the byte that `FUNCSET` sends for either `W`; the host's line by the cases of
`MODE`. -/
theorem funcsetDelivers : Obligations.FuncsetDelivers := by
  constructor
  · rintro width lines _ rfl
    exact encode_eq_and_delivers (encode_funcset width lines) (exec_funcset width lines)
  · intro p lines
    rw [funcsetLine_eq_sendWord]
    cases p.mode
    case fourBit => rw [funcsetByte_fourBit]
    case eightBit => rw [funcsetByte_eightBit]

end Sys2Proof.Machine
end

section
/-! The public operations as lists of host actions (spec/42_display_controller.md R161 to R170, R173, R174): the
instructions that each of them sends, and the lists of the power-on sequence and of `write_text` written out. -/

namespace Sys2Proof.Machine

variable {p : Params} {i : Instr}

/-! ### The instructions a list sends -/

@[simp] theorem instructionsOf_nil : instructionsOf [] = [] := rfl

@[simp] theorem instructionsOf_delay (t : Nat) (as : List HostAction) :
    instructionsOf (.delay t :: as) = instructionsOf as := rfl

@[simp] theorem instructionsOf_enter (l : LifeCycle) (as : List HostAction) :
    instructionsOf (.enter l :: as) = instructionsOf as := rfl

@[simp] theorem instructionsOf_append (as bs : List HostAction) :
    instructionsOf (as ++ bs) = instructionsOf as ++ instructionsOf bs := by
  simp [instructionsOf]

/-- A line sends its own instruction: its word decodes to that (30_encoding.md R88). -/
theorem instructionsOf_line (h : i.wf = true ∧ i.mnemonic ≠ .SEND) (as : List HostAction) :
    instructionsOf (commandLine i :: as) = i :: instructionsOf as :=
  congrArg (· :: instructionsOf as) (decodeAfterEncodeIsIdentity i h.1 h.2)

/-! ### Operations of one command (R162 to R168, R170) -/

/-- Settles O54: each expansion is one line, and its word in the worked example is computed. -/
theorem oneCommandOperationsSendTheirInstruction : Obligations.OneCommandOperationsSendTheirInstruction := by
  intro p
  refine ⟨?_, ?_, ?_, ?_, ?_, ?_, ?_, ?_, rfl, rfl, fun hm => ?function, rfl, rfl, rfl⟩
  case function => rw [expand, funcsetLine, hm]; rfl
  all_goals simp [expand, funcsetLine, instructionsOf_line, Instr.wf, Instr.mnemonic]

/-! ### The power-on sequence (R161, R173) -/

/-- The raw nibbles of the power-on sequence, in order: three times 3, and in `FourBit` the switch of the width. -/
def powerOnNibbles : BusMode → List Nibble
  | .eightBit => [3, 3, 3]
  | .fourBit => [3, 3, 3, 2]

/-- The power-on sequence sends its raw nibbles, then the settings. -/
theorem instructionsOf_initializeLines (p : Params) :
    instructionsOf (initializeLines p) = (powerOnNibbles p.mode).map Instr.rawnib ++
      [.funcset p.mode p.initLines, .dispctl p.initDisplay p.initCursor p.initBlink, .entry .right .off] := by
  cases hm : p.mode <;>
    simp [initializeLines, switchToFourBit, powerOnNibbles, hm, funcsetLine, instructionsOf_line, Instr.wf,
      Instr.mnemonic]

/-- Settles O59: `clear_display()` and `return_home()` send no `ENTRY` and no `DISPCTL`, and the power-on sequence
sends one of each, after its raw nibbles and its `FUNCSET`. -/
theorem roundTripLeavesPostInitValues : Obligations.RoundTripLeavesPostInitValues := by
  rintro p _ rfl
  have hsent : instructionsOf (expand p .initializeDisplay ++ expand p .clearDisplay ++ expand p .returnHome) =
      (powerOnNibbles p.mode).map Instr.rawnib ++ [.funcset p.mode p.initLines,
        .dispctl p.initDisplay p.initCursor p.initBlink, .entry .right .off, .clear, .home] := by
    simp [expand, instructionsOf_initializeLines, instructionsOf_line, Instr.wf, Instr.mnemonic]
  rw [hsent]
  constructor <;> simp [Instr.mnemonic]

theorem commandLine_dispctl (d : DisplayState) (c : CursorState) (k : BlinkState) :
    commandLine (.dispctl d c k) = .command (sendWord 0 0 (dispctlByte d c k)) :=
  congrArg HostAction.command (encode_dispctl d c k)

/-- Settles O56: the words of the raw nibbles and of the `ENTRY` are computed, the others are the byte formulas', the mode
deciding `W`. -/
theorem powerOnSequenceIsAsSpecified : Obligations.PowerOnSequenceIsAsSpecified := by
  intro p
  constructor <;> intro hm
  · rw [expand, initializeLines, switchToFourBit, hm, funcsetLine_eq_sendWord, hm, funcsetByte_eightBit,
      commandLine_dispctl]
    rfl
  · rw [expand, initializeLines, switchToFourBit, hm, funcsetLine_eq_sendWord, hm, funcsetByte_fourBit,
      commandLine_dispctl]
    rfl

/-! ### `write_text` (R169) -/

/-- The line that writes a character of the text. -/
def characterLine (b : Byte) : HostAction := .command (sendWord 1 0 b)

/-- A character of the text after a scroll delay. -/
def scrolledLines (p : Params) (b : Byte) : List HostAction := [.delay p.tScroll, characterLine b]

theorem commandLine_wrdata (b : Byte) : commandLine (.wrdata b) = characterLine b :=
  congrArg HostAction.command (encode_wrdata b)

/-- The loop goes on from where it is in the text. -/
theorem textLines_append (p : Params) (n : Nat) (xs ys : List Byte) :
    textLines p n (xs ++ ys) = textLines p n xs ++ textLines p (n + xs.length) ys := by
  induction xs generalizing n with
  | nil => rfl
  | cons x xs ih =>
    have hn : n + (x :: xs).length = n + 1 + xs.length := by simp; omega
    rw [List.cons_append, textLines, textLines, ih, hn]
    simp

/-- On the line, the loop writes the characters. -/
theorem textLines_line {n : Nat} {bs : List Byte} (h : n + bs.length ≤ scrollThreshold) :
    textLines p n bs = bs.map characterLine := by
  induction bs generalizing n with
  | nil => rfl
  | cons b bs ih =>
    rw [List.length_cons] at h
    have hne : n ≠ scrollThreshold := by omega
    have hlt : ¬ scrollThreshold ≤ n := by omega
    rw [textLines, if_neg hne, if_neg hlt, commandLine_wrdata, ih (by omega)]
    rfl

/-- Beyond the seventeenth character, the loop delays before each. -/
theorem textLines_beyond {n : Nat} {bs : List Byte} (h : scrollThreshold < n) :
    textLines p n bs = bs.flatMap (scrolledLines p) := by
  induction bs generalizing n with
  | nil => rfl
  | cons b bs ih =>
    rw [textLines, if_neg (by omega), if_pos (by omega), commandLine_wrdata, ih (by omega)]
    rfl

/-- At the seventeenth character, the loop puts shift-on before the first delay. -/
theorem textLines_threshold {bs : List Byte} (h : bs ≠ []) :
    textLines p scrollThreshold bs = commandLine (.entry .right .on) :: bs.flatMap (scrolledLines p) := by
  obtain ⟨b, bs, rfl⟩ := List.exists_cons_of_ne_nil h
  rw [textLines, if_pos rfl, if_pos le_rfl, commandLine_wrdata, textLines_beyond (Nat.lt_succ_self _)]
  rfl

/-- Settles O55: the loop on the line, and there and from the seventeenth character on. -/
theorem writeTextScrollsFromTheSeventeenth : Obligations.WriteTextScrollsFromTheSeventeenth := by
  intro p line more
  constructor
  · intro hline
    rw [expand, writeTextLines, textLines_line (by omega)]
    rfl
  · intro hline hmore
    rw [expand, writeTextLines, textLines_append, textLines_line (by omega), hline, Nat.zero_add,
      textLines_threshold hmore]
    simp only [List.append_assoc, List.cons_append, List.nil_append]
    rfl

/-! ### Which instructions are sent at all (R174) -/

/-- The loop of `write_text` sends characters and shift-on. -/
theorem mnemonic_of_textLines {n : Nat} {bs : List Byte} (h : i ∈ instructionsOf (textLines p n bs)) :
    i.mnemonic = .WRDATA ∨ i.mnemonic = .ENTRY := by
  induction bs generalizing n with
  | nil => simp [textLines] at h
  | cons b bs ih =>
    have hi : i = .entry .right .on ∨ i = .wrdata b ∨ i ∈ instructionsOf (textLines p (n + 1) bs) := by
      rw [textLines] at h
      split_ifs at h <;> simp_all [instructionsOf_line, Instr.wf, Instr.mnemonic]
    rcases hi with rfl | rfl | hi
    · exact .inr rfl
    · exact .inl rfl
    · exact ih hi

/-- `write_text` sends, beside those, `CLEAR`, `HOME` and shift-off. -/
theorem mem_instructionsOf_writeTextLines {bytes : List Byte} (h : i ∈ instructionsOf (writeTextLines p bytes)) :
    i = .clear ∨ i = .home ∨ i ∈ instructionsOf (textLines p 0 bytes) ∨ i = .entry .right .off := by
  simpa [writeTextLines, instructionsOf_line, Instr.wf, Instr.mnemonic] using h

/-- Settles O60, by the operations: the power-on sequence and `write_text` by what they send, the others by their one
instruction. -/
theorem macrosSendOnlyEncoderForms : Obligations.MacrosSendOnlyEncoderForms := by
  intro p op i hi
  obtain ⟨hconfigure, hentry, hfunction, hclear, hhome, hshift, hoff, hwrite, -⟩ :=
    oneCommandOperationsSendTheirInstruction p
  cases op with
  | initializeDisplay =>
    rw [expand, instructionsOf_initializeLines, List.mem_append, List.mem_map] at hi
    rcases hi with ⟨n, -, rfl⟩ | hi
    · exact .inr ⟨rfl, rfl⟩
    · simp only [List.mem_cons, List.not_mem_nil, or_false] at hi
      rcases hi with rfl | rfl | rfl <;> simp [Instr.mnemonic]
  | writeText bytes =>
    rcases mem_instructionsOf_writeTextLines hi with rfl | rfl | hi | rfl
    case inr.inr.inl => rcases mnemonic_of_textLines hi with h | h <;> simp [h]
    all_goals simp [Instr.mnemonic]
  | _ =>
    simp only [hconfigure, hentry, hfunction, hclear, hhome, hshift, hoff, hwrite, List.mem_singleton] at hi
    simp [hi, Instr.mnemonic]

end Sys2Proof.Machine
end

section
/-! The host's life cycle (spec/42_display_controller.md R160, R171): which calls are issued, and the run of the
power-on sequence from its call to `Ready`. -/

namespace Sys2Proof.Machine

variable {s t : State} {l : LifeCycle}

/-! ### A call at the port -/

theorem mayIssue_iff (l : LifeCycle) (op : PublicOp) :
    mayIssue l op = true ↔ op = .initializeDisplay ∨ l = .ready := by
  cases op <;> simp [mayIssue]

theorem issuedLines_of_mayIssue {op : PublicOp} (h : op = .initializeDisplay ∨ l = .ready) (p : Params) :
    issuedLines l p op = expand p op :=
  if_pos ((mayIssue_iff l op).mpr h)

theorem issuedLines_of_not_mayIssue {op : PublicOp} (hop : op ≠ .initializeDisplay) (hl : l ≠ .ready) (p : Params) :
    issuedLines l p op = [] :=
  if_neg fun h => ((mayIssue_iff l op).mp h).elim hop hl

/-- A ready block leaves a call at its port to the host. -/
theorem step_call {op : PublicOp} {rest : List HostAction} (hready : s.ready = true) (hr : s.resetAsserted = false)
    (hport : s.port = .call op :: rest) :
    step s = .next { s with resetIn := s.resetIn.tail, port := issuedLines s.life s.params op ++ rest } :=
  (step_ready hr ((ready_iff s).mp hready)).trans (serveHost_call (s := s.resetSampled) hport)

/-- Settles O57: the lines issued for the call are its expansion or none, as the life cycle lets it be issued. -/
theorem operationsAreIssuedInReadyOnly : Obligations.OperationsAreIssuedInReadyOnly := by
  intro s op rest hready hr hport
  rw [step_call hready hr hport]
  constructor
  · intro h
    rw [issuedLines_of_mayIssue h]
  · intro hop hl
    rw [issuedLines_of_not_mayIssue hop hl, List.nil_append]

/-! ### Steps taken in one life-cycle state -/

/-- A step from `s`, where the life cycle is `l`, to `t`. -/
def StepsIn (l : LifeCycle) (s t : State) : Prop := s.life = l ∧ step s = .next t

/-- `s` runs to `t`, and the life cycle is `l` at every step before the end. -/
def RunsIn (l : LifeCycle) : State → State → Prop := Relation.ReflTransGen (StepsIn l)

theorem runSteps_of_runsIn (h : RunsIn l s t) :
    ∃ k, runSteps k s = .next t ∧ ∀ j < k, ∃ u, runSteps j s = .next u ∧ u.life = l := by
  induction h using Relation.ReflTransGen.head_induction_on with
  | refl => exact ⟨0, rfl, nofun⟩
  | head h _ ih =>
    obtain ⟨hlife, hstep⟩ := h
    obtain ⟨k, hrun, hbefore⟩ := ih
    refine ⟨k + 1, (runSteps_of_step hstep).trans hrun, fun j hj => ?_⟩
    cases j with
    | zero => exact ⟨_, rfl, hlife⟩
    | succ j =>
      rw [runSteps_of_step hstep]
      exact hbefore j (Nat.lt_of_succ_lt_succ hj)

/-! ### The lines of an operation, one after the other -/

/-- What holds between two steps of a run that no reset interrupts: the invariant, the premise of 20_memory.md R72, and
the life cycle `l`. -/
structure State.Hosting (l : LifeCycle) (s : State) : Prop where
  inv : s.Inv
  noReset : s.resetIn = []
  eventuallyReady : s.oracle.ModuleEventuallyReady
  life : s.life = l

/-- In the life cycle `l`, the block comes to be ready with `rest` left at its port. -/
def State.ComesToRest (l : LifeCycle) (rest : List HostAction) (s : State) : Prop :=
  ∃ u, RunsIn l s u ∧ u.Hosting l ∧ u.ready = true ∧ u.port = rest

theorem State.Hosting.comesToRest_here (hH : s.Hosting l) (hready : s.ready = true) : s.ComesToRest l s.port :=
  ⟨s, .refl, hH, hready, rfl⟩

/-- A block comes to rest if it does so after a step. -/
theorem State.ComesToRest.of_step {rest : List HostAction} (hlife : s.life = l) (hstep : step s = .next t)
    (ht : t.ComesToRest l rest) : s.ComesToRest l rest := by
  obtain ⟨u, hrun, hu⟩ := ht
  exact ⟨u, .head ⟨hlife, hstep⟩ hrun, hu⟩

/-- A row of the table leaves what is the host's. -/
theorem State.Hosting.row (hH : s.Hosting l) (h : advance s = .next t) : t.Hosting l ∧ t.port = s.port := by
  obtain ⟨-, hport, hlife, horacle, -, hresetIn⟩ := advance_keeps_outside h
  exact ⟨⟨advance_keeps_Inv hH.inv h, hresetIn.trans hH.noReset, horacle ▸ hH.eventuallyReady,
    hlife.trans hH.life⟩, hport⟩

/-- Where a run of `k` steps ends at a ready block, the rows of the command in progress lead to the first such block. -/
theorem State.Hosting.comesToRest_of_runSteps {k : Nat} (hH : s.Hosting l) (h : runSteps k s = .next t)
    (ht : t.ready = true) : s.ComesToRest l s.port := by
  induction k generalizing s with
  | zero =>
    cases h
    exact hH.comesToRest_here ht
  | succ k ih =>
    cases hready : s.ready with
    | true => exact hH.comesToRest_here hready
    | false =>
      obtain ⟨v, hstep, hrun⟩ := runSteps_succ_cases h
      have ha : advance s = .next v := (step_advance hH.noReset ((not_ready_iff s).mp hready)).symm.trans hstep
      obtain ⟨hv, hport⟩ := hH.row ha
      exact .of_step hH.life hstep (hport ▸ ih hv hrun)

/-- The command in progress, if there is one, returns. -/
theorem State.Hosting.comesToRest (hH : s.Hosting l) : s.ComesToRest l s.port := by
  obtain ⟨k, t, hrun, hready, -⟩ := returns_of_eventuallyReady _ s rfl hH.inv hH.noReset hH.eventuallyReady
  exact hH.comesToRest_of_runSteps hrun hready

/-- The lines that a ready block takes without a change of the life cycle: a delay, the word of a `SEND` that writes, the
word of a `RAWNIB`. -/
inductive HostAction.Plain : HostAction → Prop
  | delay (d : Nat) : Plain (.delay d)
  | send (rs : Bit) (byte : Byte) : Plain (.command (sendWord rs 0 byte))
  | rawnib (n : Nibble) : Plain (.command (rawnibWord n))

theorem decode_rawnibWord (n : Nibble) : decode (rawnibWord n) = .rawnib n := by
  rw [← encode_rawnib]
  exact decodeAfterEncodeIsIdentity _ rfl nofun

/-- A ready block takes such a line from its port. -/
theorem HostAction.Plain.taken {a : HostAction} {rest : List HostAction} (ha : a.Plain) (hready : s.ready = true)
    (hr : s.resetIn = []) (hport : s.port = a :: rest) :
    ∃ t, step s = .next t ∧ t.port = rest ∧ t.life = s.life ∧ t.resetIn = [] := by
  have hserve : step s = serveHost s := by
    rw [step_ready (resetAsserted_of_nil hr) ((ready_iff s).mp hready), resetSampled_of_nil hr]
  cases ha with
  | delay d => exact ⟨_, hserve.trans (serveHost_delay hport), rfl, rfl, hr⟩
  | send rs byte =>
    rw [hserve, serveHost_command hport, exec_decode_sendWord, present_ready (s := s.withPort rest) hready]
    exact ⟨_, rfl, rfl, rfl, hr⟩
  | rawnib n =>
    rw [hserve, serveHost_command hport, decode_rawnibWord, exec_rawnib, present_ready (s := s.withPort rest) hready]
    exact ⟨_, rfl, rfl, rfl, hr⟩

/-- Taking such a line leaves everything as it was between two steps. -/
theorem State.Hosting.line {a : HostAction} {rest : List HostAction} (hH : s.Hosting l) (ha : a.Plain)
    (hready : s.ready = true) (hport : s.port = a :: rest) :
    ∃ t, step s = .next t ∧ t.Hosting l ∧ t.port = rest := by
  obtain ⟨t, hstep, htport, htlife, htreset⟩ := ha.taken hready hH.noReset hport
  have horacle : t.oracle = s.oracle := (step_keeps_oracle hstep).1
  exact ⟨t, hstep, ⟨everyStepKeepsInvariant s t hH.inv hstep, htreset, horacle ▸ hH.eventuallyReady,
    htlife.trans hH.life⟩, htport⟩

/-- A list of such lines is carried out to its end, by induction on the list: each line is taken, and the command in
progress returns. -/
theorem State.Hosting.lines {as rest : List HostAction} (hH : s.Hosting l) (has : ∀ a ∈ as, a.Plain)
    (hready : s.ready = true) (hport : s.port = as ++ rest) : s.ComesToRest l rest := by
  induction as generalizing s with
  | nil =>
    obtain rfl : s.port = rest := hport
    exact hH.comesToRest_here hready
  | cons a as ih =>
    obtain ⟨ha, has⟩ := List.forall_mem_cons.mp has
    obtain ⟨t, hstep, ht, htport⟩ := hH.line ha hready hport
    obtain ⟨v, htv, hv, hvready, hvport⟩ := ht.comesToRest
    obtain ⟨u, hvu, hu⟩ := ih hv has hvready (hvport.trans htport)
    exact .of_step hH.life hstep ⟨u, htv.trans hvu, hu⟩

/-! ### The power-on sequence (R161) -/

/-- The lines of the power-on sequence between its two life-cycle changes. -/
def powerOnLines (p : Params) : List HostAction :=
  [.delay p.tPowerOn, commandLine (.rawnib 0b0011), .delay p.tInit1, commandLine (.rawnib 0b0011), .delay p.tInit2,
    commandLine (.rawnib 0b0011), .delay p.tInit3] ++ switchToFourBit p ++
    [funcsetLine p p.initLines, commandLine (.dispctl p.initDisplay p.initCursor p.initBlink),
      commandLine (.entry .right .off)]

theorem initializeLines_eq (p : Params) :
    initializeLines p = .enter .initializing :: powerOnLines p ++ [.enter .ready] := by
  simp [initializeLines, powerOnLines]

theorem plain_rawnib (n : Nibble) : (commandLine (.rawnib n)).Plain := by
  rw [commandLine, encode_rawnib]
  exact .rawnib n

theorem plain_of_sendWord {i : Instr} {rs : Bit} {byte : Byte} (h : encode i = sendWord rs 0 byte) :
    (commandLine i).Plain := by
  rw [commandLine, h]
  exact .send rs byte

theorem plain_of_switchToFourBit (p : Params) : ∀ a ∈ switchToFourBit p, a.Plain := by
  unfold switchToFourBit
  cases p.mode <;> simp [plain_rawnib, HostAction.Plain.delay]

theorem plain_of_powerOnLines (p : Params) : ∀ a ∈ powerOnLines p, a.Plain := by
  have hfuncset : (funcsetLine p p.initLines).Plain := plain_of_sendWord (encode_funcset _ _)
  have hdispctl := plain_of_sendWord (encode_dispctl p.initDisplay p.initCursor p.initBlink)
  have hentry := plain_of_sendWord (encode_entry .right .off)
  simp only [powerOnLines, List.forall_mem_append]
  refine ⟨⟨?_, plain_of_switchToFourBit p⟩, ?_⟩
  · simp [plain_rawnib, HostAction.Plain.delay]
  · simp [hfuncset, hdispctl, hentry]

/-- A ready block leaves a change of the life cycle at its port to the host. -/
theorem step_enter {l' : LifeCycle} {rest : List HostAction} (hready : s.ready = true) (hr : s.resetIn = [])
    (hport : s.port = .enter l' :: rest) : step s = .next (hostEnter l' (s.withPort rest)) := by
  rw [step_ready (resetAsserted_of_nil hr) ((ready_iff s).mp hready), resetSampled_of_nil hr, serveHost_enter hport]

/-- The first two steps of the call: the lines of the power-on sequence go to the port, and the life cycle moves on. -/
theorem runSteps_powerOn_start {rest : List HostAction} (hready : s.ready = true) (hr : s.resetIn = [])
    (hport : s.port = .call .initializeDisplay :: rest) :
    runSteps 2 s =
      .next (hostEnter .initializing (s.withPort (powerOnLines s.params ++ .enter .ready :: rest))) := by
  have hlines : issuedLines s.life s.params .initializeDisplay ++ rest =
      .enter .initializing :: (powerOnLines s.params ++ .enter .ready :: rest) := by
    rw [issuedLines_of_mayIssue (.inl rfl), expand, initializeLines_eq]
    simp
  have hcall : step s =
      .next (s.withPort (.enter .initializing :: (powerOnLines s.params ++ .enter .ready :: rest))) := by
    rw [step_call hready (resetAsserted_of_nil hr) hport, hlines]
    simp only [State.withPort, hr, List.tail_nil]
  refine (runSteps_of_step hcall).trans (runSteps_of_step (step_enter ?_ ?_ ?_))
  · exact hready
  · exact hr
  · rfl

/-- Settles O58: the call and the first change of the life cycle are two steps, the lines between the changes run in
`Initializing`, and the last change is one step more. -/
theorem initializeMakesTheHostReady : Obligations.InitializeMakesTheHostReady := by
  intro s rest hI hready hr ho hport
  have hstart := runSteps_powerOn_start hready hr hport
  have hH : (hostEnter .initializing (s.withPort (powerOnLines s.params ++ .enter .ready :: rest))).Hosting
      .initializing := ⟨Inv_of_environment (s := s) hI, hr, ho, rfl⟩
  obtain ⟨u, hlines, hu, huready, huport⟩ := hH.lines (plain_of_powerOnLines s.params) hready rfl
  have hlast := step_enter huready hu.noReset huport
  obtain ⟨k, hrun, hbefore⟩ := runSteps_of_runsIn (hlines.tail ⟨hu.life, hlast⟩)
  refine ⟨2 + k, _, (runSteps_add_of_next hstart).trans hrun, huready, Inv_of_environment (s := u) hu.inv, rfl, rfl,
    fun j h2 hj => ?_⟩
  obtain ⟨i, rfl⟩ := Nat.exists_eq_add_of_le h2
  rw [runSteps_add_of_next hstart]
  exact hbefore i (by omega)

end Sys2Proof.Machine
end

section
/-! No faults and one hang (spec/60_exceptions.md R190, R191, R192): a step of the machine answers or meets a reserved word, and
a module that stays busy keeps a poll going for ever. -/

namespace Sys2Proof.Machine

variable {s t : State}

/-! ### What a step can stop for (R190, R191) -/

/-- The command words the spec gives no meaning (30_encoding.md R87). -/
def ReservedWord (w : CmdWord) : Prop :=
  opField w = 3 ∨ (opField w = 0 ∧ rwField w = 1) ∨ (opField w = 1 ∧ rawReservedField w ≠ 0) ∨
    (opField w = 2 ∧ payloadField w ≠ 0)

/-- Every other word is one that the block presents, whatever its state. -/
theorem presents_of_not_reservedWord {w : CmdWord} (h : ¬ ReservedWord w) :
    ∃ v first, ∀ s, exec (decode w) s = present v first s := by
  simp only [ReservedWord, not_or, not_and, not_not] at h
  obtain ⟨h3, hread, hraw, hpoll⟩ := h
  rcases opField_cases w with hop | hop | hop | hop
  · have hrw : rwField w = 0 := (Bit.eq_zero_or_one _).resolve_right (hread hop)
    rw [← sendWord_fields w hop, hrw]
    exact ⟨_, _, exec_decode_sendWord _ _⟩
  · rw [decode_rawnib hop (hraw hop)]
    exact ⟨_, _, exec_rawnib _⟩
  · rw [decode_poll hop (hpoll hop)]
    exact ⟨_, _, exec_poll⟩
  · exact absurd hop h3

/-- A reserved word at the port of a ready block is refused, for one reason or another. -/
theorem step_refused_of_reservedWord {w : CmdWord} {rest : List HostAction} (hw : ReservedWord w) (hready : s.ready = true)
    (hr : s.resetAsserted = false) (hport : s.port = .command w :: rest) : ∃ r, step s = .refused r := by
  obtain ⟨-, -, -, -, hrefused⟩ := reservedWordsAreRefused
  obtain ⟨h3, hread, hraw, hpoll⟩ := hrefused s w rest hready hr hport
  rcases hw with hop | ⟨hop, hrw⟩ | ⟨hop, hbits⟩ | ⟨hop, hbits⟩
  · exact ⟨_, h3 hop⟩
  · exact ⟨_, hread hop hrw⟩
  · exact ⟨_, hraw hop hbits⟩
  · exact ⟨_, hpoll hop hbits⟩

/-- A ready block answers, or a reserved word is next at its port. -/
theorem step_ready_next_or_reservedWord (hready : s.ready = true) (hr : s.resetAsserted = false) :
    (∃ t, step s = .next t) ∨ ∃ w rest, s.port = .command w :: rest ∧ ReservedWord w := by
  have hserve : step s = serveHost s.resetSampled := step_ready hr ((ready_iff s).mp hready)
  rcases hport : s.port with _ | ⟨w | d | l | op, rest⟩
  case nil => exact .inl ⟨_, hserve.trans (serveHost_nothing hport)⟩
  case cons.delay => exact .inl ⟨_, hserve.trans (serveHost_delay (s := s.resetSampled) hport)⟩
  case cons.enter => exact .inl ⟨_, hserve.trans (serveHost_enter (s := s.resetSampled) hport)⟩
  case cons.call => exact .inl ⟨_, step_call hready hr hport⟩
  case cons.command =>
    by_cases hw : ReservedWord w
    · exact .inr ⟨w, rest, rfl, hw⟩
    · obtain ⟨v, first, hpresents⟩ := presents_of_not_reservedWord hw
      rw [step_command hready hr hport, hpresents, present_ready (s := s.resetSampled.withPort rest) hready]
      exact .inl ⟨_, rfl⟩

/-- Settles O46: a reset answers, a busy block answers by the invariant, and a ready block answers unless a reserved word is
next at its port, which is refused. -/
theorem stepNeverFaultsAndRefusesOnlyReservedWords : Obligations.StepNeverFaultsAndRefusesOnlyReservedWords := by
  intro s hI
  cases hr : s.resetAsserted with
  | true => exact .inl ⟨_, step_reset hr⟩
  | false =>
    cases hready : s.ready with
    | false =>
      obtain ⟨t, ht⟩ := (Inv_of_environment (s := s) (resetIn := s.resetIn.tail) hI).advances
      exact .inl ⟨t, (step_busy hr ((not_ready_iff s).mp hready)).trans ht⟩
    | true =>
      refine (step_ready_next_or_reservedWord hready hr).imp_right fun ⟨w, rest, hport, hw⟩ => ?_
      obtain ⟨r, hrefused⟩ := step_refused_of_reservedWord hw hready hr hport
      exact ⟨rfl, rfl, w, rest, r, hport, hrefused, hw⟩

/-! ### A poll that does not end (R192) -/

/-- Every row of a poll with `D[7]` an input, but for `P_REST`, leads to another such row. -/
theorem advance_keeps_lineIn (h : advance s = .next t) (hrest : s.seq ≠ .P_REST) (hline : s.seq.lineIn = true) :
    t.seq.lineIn = true := by
  apply advance_elim h
  case P_REST_send | P_REST_poll => exact fun hq => absurd hq hrest
  case P_CTRL | P_EH | P_PW | P_SMP | P_DEH | P_DPW | P_DEL => rintro - rfl; rfl
  case P_EL_eight | P_EL_four | P_TEST_busy | P_TEST_clear => rintro - - rfl; rfl
  all_goals exact fun hq => absurd hline (by rw [hq]; decide)

/-- But for the row of `P_SMP`, no row goes from before a sample to after it. -/
theorem advance_flows (h : advance s = .next t) (hsample : s.seq ≠ .P_SMP) : s.seq.flows t.seq = true := by
  apply advance_elim h
  case P_SMP => exact fun hq => absurd hq hsample
  all_goals
    intro hq
    intros
    subst t
    rw [hq]
    rfl

/-- After a sample `BF` holds what the module answered. -/
theorem advance_sampledFlag (h : advance s = .next t) (ht : t.seq.afterSample = true) :
    t.bf = s.answer 0 ∨ (s.seq.afterSample = true ∧ t.bf = s.bf) := by
  by_cases hq : s.seq = .P_SMP
  · rw [advance_P_SMP hq, Host.Outcome.next.injEq] at h
    exact .inl (h ▸ rfl)
  · obtain ⟨-, hflow, -⟩ := flows_iff.mp (advance_flows h hq)
    exact .inr ⟨hflow ht, (advance_bf h).resolve_right hq⟩

/-- A module that gives one answer for ever goes on to do so after a row. -/
theorem advance_keeps_constantAnswer {b : Bit} (h : advance s = .next t) (hb : ∀ j, s.answer j = b) (j : Nat) :
    t.answer j = b := by
  apply advance_elim h
  case P_SMP => rintro - rfl; rw [answer_goto, answer_smp, hb]
  all_goals intros; subst t; simp [hb]

/-- A poll that hangs: `D[7]` is an input, the module answers 1 for ever, and after a sample `BF` is 1. -/
structure State.Hanging (s : State) : Prop where
  inv : s.Inv
  noReset : s.resetIn = []
  staysBusy : ∀ j, s.answer j = 1
  lineIn : s.seq.lineIn = true
  sampledBusy : s.seq.afterSample = true → s.bf = 1

/-- The invariant wants `BF = 0` at `P_REST`. -/
theorem State.Hanging.not_rest (hH : s.Hanging) : s.seq ≠ .P_REST := by
  intro hq
  have hclear : s.bf = 0 := hH.inv.flagClear (by rw [hq]; rfl)
  have hbusy : s.bf = 1 := hH.sampledBusy (by rw [hq]; rfl)
  rw [hclear] at hbusy
  cases hbusy

theorem ready_of_polling (h : s.seq.group = .poll) : s.ready = false :=
  (not_ready_iff s).mpr fun hq => by
    rw [hq] at h
    cases h

/-- A poll that hangs takes another row and hangs on. -/
theorem State.Hanging.steps (hH : s.Hanging) : ∃ t, step s = .next t ∧ t.Hanging := by
  obtain ⟨t, ha⟩ := hH.inv.advances
  have hidle : s.seq ≠ .IDLE := (not_ready_iff s).mp (ready_of_polling (group_of_lineIn hH.lineIn))
  refine ⟨t, (step_advance hH.noReset hidle).trans ha, ?_⟩
  constructor
  case inv => exact advance_keeps_Inv hH.inv ha
  case noReset => exact (advance_keeps_environment ha).2.trans hH.noReset
  case staysBusy => exact advance_keeps_constantAnswer ha hH.staysBusy
  case lineIn => exact advance_keeps_lineIn ha hH.not_rest hH.lineIn
  case sampledBusy =>
    intro ht
    rcases advance_sampledFlag ha ht with hbf | ⟨hs, hbf⟩
    · exact hbf.trans (hH.staysBusy 0)
    · exact hbf.trans (hH.sampledBusy hs)

/-- So it does for any number of steps. -/
theorem State.Hanging.runs (hH : s.Hanging) (k : Nat) : ∃ t, runSteps k s = .next t ∧ t.Hanging := by
  induction k generalizing s with
  | zero => exact ⟨s, rfl, hH⟩
  | succ k ih =>
    obtain ⟨u, hstep, hu⟩ := hH.steps
    obtain ⟨t, hrun, ht⟩ := ih hu
    exact ⟨t, (runSteps_of_step hstep).trans hrun, ht⟩

/-- The first row of a poll of a module that stays busy leads to a poll that hangs. -/
theorem hanging_of_takeLine (hI : s.Inv) (hq : s.seq = .P_CFG) (hr : s.resetIn = []) (hb : ∀ j, s.answer j = 1) :
    ((cfg7In s).goto .P_CTRL).Hanging where
  inv := Inv_takeLine hI hq
  noReset := hr
  staysBusy j := by rw [answer_goto, answer_cfg7In, hb]
  lineIn := rfl
  sampledBusy := nofun

/-- Settles O47: the row of `P_CFG` leads to a poll that hangs, and every step keeps that. -/
theorem pollHangsWhileModuleStaysBusy : Obligations.PollHangsWhileModuleStaysBusy := by
  intro s hI hq hr hb k
  cases k with
  | zero =>
    have hpoll : s.seq.group = .poll := by rw [hq]; rfl
    exact ⟨s, rfl, ready_of_polling hpoll, hpoll, nofun, by rw [hq]; nofun⟩
  | succ k =>
    obtain ⟨t, hrun, ht⟩ := (hanging_of_takeLine hI hq hr hb).runs k
    have hpoll : t.seq.group = .poll := group_of_lineIn ht.lineIn
    have hddir : t.ddir = 0x7F := ht.inv.direction.trans (if_pos ht.lineIn)
    have hfirst := runSteps_of_advance (k := k) hr (by rw [hq]; nofun) (advance_P_CFG hq)
    exact ⟨t, hfirst.trans hrun, ready_of_polling hpoll, hpoll, fun _ => hddir, ht.not_rest⟩

end Sys2Proof.Machine
end

section
/-! Reset and hazards (spec/70_reset_and_hazards.md R210, R213, R216): reset wins over every step, a transfer is reached through
a poll that found the module ready, and the sampled line is restored on every way out of a poll. -/

namespace Sys2Proof.Machine

variable {s t : State} {e : PinEvent}

/-! ### The way into a transfer (R213) -/

/-- Only `P_REST` leads to the first row of a transfer. -/
theorem advance_into_S_CTRL (h : advance s = .next t) (ht : t.seq = .S_CTRL) : s.seq = .P_REST := by
  revert ht
  apply advance_elim h
  case IDLE => rintro hq rfl ht; cases hq.symm.trans ht
  case P_REST_send => exact fun hq _ _ _ => hq
  all_goals intros; subst t; contradiction

/-- Only `P_TEST` leads to the end of a poll, and it asks for `BF = 0`. -/
theorem advance_into_P_REST (h : advance s = .next t) (ht : t.seq = .P_REST) : s.seq = .P_TEST ∧ s.bf = 0 := by
  revert ht
  apply advance_elim h
  case IDLE => rintro hq rfl ht; cases hq.symm.trans ht
  case P_TEST_clear => exact fun hq hbf _ _ => ⟨hq, hbf⟩
  all_goals intros; subst t; contradiction

/-- A row in a transfer comes after another, but for the first one. -/
theorem advance_into_send (h : advance s = .next t) (ht : t.seq.group = .send) : s.seq.group = .send ∨ t.seq = .S_CTRL := by
  revert ht
  apply advance_elim h
  case IDLE => rintro - rfl ht; exact .inl ht
  case P_REST_send => rintro - - rfl -; exact .inr rfl
  case S_DIR | S_EH0 | S_PW0 | S_D1 | S_EH1 | S_PW1 => rintro hq rfl -; exact .inl (by rw [hq]; rfl)
  case S_CTRL_eight | S_CTRL_four | S_D0_eight | S_D0_four | S_EL0_four =>
    rintro hq - rfl -; exact .inl (by rw [hq]; rfl)
  all_goals intros; subst t; contradiction

/-- A step that is no row of the table leads to rest or to the first row of an accepted command. -/
theorem step_starts_or_advances (h : step s = .next t) :
    (t.seq = .IDLE ∨ t.seq = .P_CFG ∨ t.seq = .R_CTRL) ∨ advance s.resetSampled = .next t := by
  rcases step_next_cases h with ⟨_, rfl⟩ | ⟨_, _, ha⟩ | ⟨_, hq, _, rfl⟩ | ⟨_, hq, _, _, _, rfl⟩ | ⟨_, hq, _, _, _, rfl⟩ |
    ⟨_, hq, _, _, _, rfl⟩ | ⟨_, hq, rest, _, _, he⟩
  · exact .inl (.inl rfl)
  · exact .inr ha
  · exact .inl (.inl hq)
  · exact .inl (.inl hq)
  · exact .inl (.inl hq)
  · exact .inl (.inl hq)
  · obtain ⟨_, _, rfl⟩ | ⟨_, rfl⟩ | rfl :=
      exec_next_of_ready (s := s.resetSampled.withPort rest) ((ready_iff _).mpr hq) he
    · exact .inl (.inr (.inl rfl))
    · exact .inl (.inr (.inr rfl))
    · exact .inl (.inr (.inl rfl))

/-- Settles O42: a step into these states is a row of the table, and the table has one way in. -/
theorem transferReachedOnlyThroughClearPoll : Obligations.TransferReachedOnlyThroughClearPoll := by
  intro s t h
  rcases step_starts_or_advances h with hstart | ha
  · rcases hstart with hq | hq | hq <;> (rw [hq]; exact ⟨nofun, nofun, nofun⟩)
  · exact ⟨advance_into_S_CTRL (s := s.resetSampled) ha, advance_into_P_REST (s := s.resetSampled) ha,
      advance_into_send (s := s.resetSampled) ha⟩

/-! ### The sampled line (R216) -/

/-- A pulse that ends with `D[7]` an input is one of the poll's own, which reads. -/
theorem reading_of_endsPulse {q : Seq} (hline : q.lineIn = true) (hp : q.endsPulse = true) : q.reading = true := by
  have hctrl : q ≠ .P_CTRL := by rintro rfl; cases hp
  simp [Seq.reading, hline, hctrl]

/-- While `D[7]` is an input, no operation records a write cycle. -/
theorem Emits.addsNoWrite (h : Emits s e t) (hI : s.Inv) (hline : s.seq.lineIn = true) :
    ∃ cs, t.bus = s.bus ++ cs ∧ ∀ c ∈ cs, c.isWrite = false := by
  rcases h.bus with ⟨_, hbus⟩ | ⟨_, hp, hbus⟩
  · exact ⟨[], by simpa using hbus, nofun⟩
  · have hrw : s.rw = 1 := (hI.statusRead (reading_of_endsPulse hline hp)).2
    exact ⟨_, hbus, by simp [BusCycle.isWrite, hrw]⟩

/-- Settles O45: outside a poll the invariant gives the line's direction and pull-up, and inside one it gives `RW = 1`
wherever a pulse ends. -/
theorem sampledLineIsRestoredOnEveryExit : Obligations.SampledLineIsRestoredOnEveryExit := by
  intro s t hI hline h
  have hI' : t.Inv := everyStepKeepsInvariant s t hI h
  refine ⟨fun hout => ⟨?_, ?_⟩, fun hr => ?_⟩
  · rw [hI'.direction, hout]; rfl
  · rw [hI'.pullUp, hout]; rfl
  · obtain ⟨port, life, resetIn, evs, hdo⟩ := step_does hr h
    cases hdo with
    | move => exact ⟨[], (List.append_nil _).symm, nofun⟩
    | one he => exact he.addsNoWrite (Inv_of_environment hI) hline
    | last he _ => exact he.addsNoWrite (Inv_of_environment hI) hline

/-! ### Reset (R210) -/

/-- Settles O23: the step is a reset, which leaves a freshly reset machine and keeps the environment. -/
theorem resetOverridesEveryStep : Obligations.ResetOverridesEveryStep := by
  intro s hr
  obtain ⟨hseq, hdout, hddir, hdpue, hrs, hrw, he, hbf, hpins, hbus⟩ := (takeReset_freshlyReset s.resetSampled).values
  exact ⟨takeReset s.resetSampled, step_reset hr, hseq, he, hrs, hrw, hbf, hdout, hddir, hdpue, (ready_iff _).mpr hseq,
    hpins, hbus, sampleCount_takeReset _, rfl, rfl, rfl, rfl, rfl⟩

end Sys2Proof.Machine
end
